-- ==== Sys2Proof/Word.lean ====
section
/-! DEFINITION. The word types of the CI-V frame codec: bytes and byte sequences (R8, R9). -/

namespace Sys2Proof

/-- A byte: 8 bits, bit 7 the most significant (R8). -/
abbrev Byte := BitVec 8

/-- A byte sequence, element 0 the first on the wire (R8, R9). -/
abbrev ByteSeq := List Byte

end Sys2Proof
end

