-- ==== Sys2Proof/Config.lean ====
section
/-! DEFINITION. What an implementation fixes: the open parameters of R7 and of 92_eei_decisions.md. -/

namespace Sys2Proof.Config

/-- A named rig profile, the columns of R122's table: `PROFILE_SEL`, `modelName` (ASCII), `busAddress`,
`maxBaudRate`. -/
structure ProfileRow where
  modelName : ByteSeq
  sel : BitVec 2
  busAddress : Byte
  maxBaudRate : BitVec 32
deriving DecidableEq, Repr

/-- The open parameters of the block that are plain data (R7, R122, R300, D6, D10, I27). A State carries them, no step
changes them, so a statement about every state holds for every value of them (log 7, log 21). -/
structure Params where
  /-- `RXBUF_CAP`: capacity of the receive candidate buffer; `none` is the infinite one (D6). -/
  rxbufCap : Option Nat
  /-- `SCOPE_SUB_OFF`: offset of the sub-marker, from the first byte after `27 00` (D10). -/
  scopeSubOff : Nat
  /-- `SCOPE_DATA_OFF`: offset of the first scope-payload byte, same origin (D10). -/
  scopeDataOff : Nat
  /-- The named rows of the profile table: any finite table (R122, I27). The default row, loaded for a name that is in
  no row, is `Machine.defaultProfile` under every table: R121, R123 and R42 write its values out (log 21). -/
  profiles : List ProfileRow
deriving DecidableEq, Repr

/-- The ranges R7 gives: the capacity at least 64 or infinite, the data offset above the sub-marker's. Every finite
profile table is legal (92_eei_decisions.md, summary). -/
def Params.legal (p : Params) : Bool :=
  (match p.rxbufCap with
    | none => true
    | some c => decide (64 ≤ c)) && decide (p.scopeSubOff < p.scopeDataOff)

/-- `VOLT_REPR`: how the exact voltage is rounded to an output word (R222, D24). OPEN, any function: no value of it
can be proved (log 13). -/
opaque voltRepr : Rat → Nat

end Sys2Proof.Config
end

