-- ==== Sys2Proof/Machine/Constants.lean ====
section
/-! DEFINITION. The constants of the block (R6, R39): delimiters, lengths, the profile table and the other
default parameters (R7, R122), the command catalog (R94) and the operating-mode table (R224). None is state. -/

namespace Sys2Proof.Machine

/-- The byte `FE`, twice the preamble (R6). -/
def preambleByte : Byte := 0xFE

/-- `POSTAMBLE`, the byte `FD` (R6). -/
def postamble : Byte := 0xFD

/-- The value `HOST_ADDR` is hard-wired to (R6, R23). -/
def hostAddrValue : Byte := 0x00

/-- `CMD_MIN` and `CMD_MAX`, the lengths of a command path (R6). -/
abbrev cmdMin : Nat := 1
abbrev cmdMax : Nat := 3

/-- `MAX_PAYLOAD`, the greatest payload of a transmitted frame (R6). -/
abbrev maxPayload : Nat := 50

/-- `N_SAMPLES`, the amplitude samples of one sweep (R6). -/
abbrev nSamples : Nat := 475

/-- `MARK_FIRST` and `MARK_LAST`, the sub-markers of the header and of the terminal frame (R6, R97).
UNVERIFIED by the spec's own word (R296), log 20. -/
def markFirst : Byte := 0x01
def markLast : Byte := 0x11

/-- `HDR_SKIP`, `FREQ_LEN`, `SPAN_LEN` and their sum `HDR_LEN` (R6, R98, C1). UNVERIFIED, log 20. -/
abbrev hdrSkip : Nat := 1
abbrev freqLen : Nat := 5
abbrev spanLen : Nat := 6
abbrev hdrLen : Nat := hdrSkip + freqLen + spanLen

/-- `ATT_BUDGET_DEFAULT` (R6). -/
abbrev attBudgetDefault : Nat := 15

/-- The greatest decimal digit a BCD nibble may hold (D14). -/
abbrev maxDigit : Nat := 9

/-- Row 0 of every profile table, the profile of an unknown name: the values R121, R123 and R42 write out. That
every table has them is a DESIGN CHOICE (log 21). -/
def defaultProfile : Config.ProfileRow := { modelName := [], sel := 0, busAddress := 0x00, maxBaudRate := 19200 }

/-- The named rows of the default profile table (R122), their names in ASCII: `IC-7300`, `ID-51`, `IC-R6` (R124). -/
def profileRom : List Config.ProfileRow :=
  [{ modelName := [0x49, 0x43, 0x2D, 0x37, 0x33, 0x30, 0x30], sel := 1, busAddress := 0x94, maxBaudRate := 115200 },
   { modelName := [0x49, 0x44, 0x2D, 0x35, 0x31], sel := 2, busAddress := 0x86, maxBaudRate := 19200 },
   { modelName := [0x49, 0x43, 0x2D, 0x52, 0x36], sel := 3, busAddress := 0x7E, maxBaudRate := 19200 }]

/-- The defaults of R7 and of the summary of 92_eei_decisions.md. DESIGN CHOICE of the spec, log 7. -/
def defaultParams : Config.Params := { rxbufCap := none, scopeSubOff := 0, scopeDataOff := 1, profiles := profileRom }

/-- The ten commands of the catalog (R94), in its order. -/
inductive CatalogCmd where
  | readFreq
  | readMode
  | powerOn
  | powerOff
  | readVolt
  | scopeDispOn
  | scopeDispOff
  | scopeOutOn
  | scopeOutOff
  | readScope
deriving DecidableEq, Repr

/-- The command path of a catalog entry (R94). -/
def catalogPath : CatalogCmd → ByteSeq
  | .readFreq => [0x03]
  | .readMode => [0x04]
  | .powerOn => [0x18, 0x01]
  | .powerOff => [0x18, 0x00]
  | .readVolt => [0x15, 0x15]
  | .scopeDispOn => [0x27, 0x10, 0x01]
  | .scopeDispOff => [0x27, 0x10, 0x00]
  | .scopeOutOn => [0x27, 0x11, 0x01]
  | .scopeOutOff => [0x27, 0x11, 0x00]
  | .readScope => [0x27, 0x00]

/-- The catalog as a list (R94). -/
def catalog : List CatalogCmd :=
  [.readFreq, .readMode, .powerOn, .powerOff, .readVolt, .scopeDispOn, .scopeDispOff, .scopeOutOn, .scopeOutOff,
   .readScope]

/-- The mode names the table of R224 uses. -/
inductive ModeName where
  | lsb | usb | am | cw | rtty | fm | reserved | cwR | rttyR | na | dv
deriving DecidableEq, Repr

/-- The ASCII text of a mode name (R224). -/
def modeText : ModeName → String
  | .lsb => "LSB"
  | .usb => "USB"
  | .am => "AM"
  | .cw => "CW"
  | .rtty => "RTTY"
  | .fm => "FM"
  | .reserved => "Reserved"
  | .cwR => "CW-R"
  | .rttyR => "RTTY-R"
  | .na => "N/A"
  | .dv => "DV"

/-- The mode table, 18 entries, index 0 first (R224). -/
def modeTable : Vector ModeName 18 :=
  #v[.lsb, .usb, .am, .cw, .rtty, .fm, .reserved, .cwR, .rttyR, .na, .na, .na, .na, .na, .na, .na, .na, .dv]

/-- The index an out-of-range mode code defaults to, and the greatest index (R223). -/
def modeDefault : Fin 18 := 9
abbrev modeMax : Nat := 17

end Sys2Proof.Machine
end

