-- ==== Sys2Proof/Syntax.lean ====
section
/-! DEFINITION. The instructions: one constructor per row of spec/opcode_table.json (R111), and the transactions in
which they reach the block. -/

namespace Sys2Proof

/-- A received `27 00` frame whose payload is too short for a sub-marker (R96). -/
structure ShortScope where
  src : Byte
  payload : ByteSeq
deriving DecidableEq, Repr

/-- The payload of a received `27 00` frame around its sub-marker: the bytes at offsets below `SCOPE_SUB_OFF`, none by
default, and those after the sub-marker (R96). -/
structure ScopeRest where
  before : ByteSeq
  after : ByteSeq
deriving DecidableEq, Repr

/-- One constructor per row of the opcode table, in its order: the operations of R100 with their operands, the
transmit forms of R108 and R130, and the classes of accepted received frames of R111. -/
inductive Instr where
  /-- `RESET` (R120). -/
  | reset
  /-- `CFG.PROFILE name`, the model name's ASCII bytes (R121). -/
  | cfgProfile (name : ByteSeq)
  /-- `TX.ENCODE dst, cmd, payload` (R130). -/
  | txEncode (dst : Byte) (cmd : ByteSeq) (payload : ByteSeq)
  /-- `RX.BYTE x` (R150). -/
  | rxByte (x : Byte)
  /-- `RX.FLUSH` (R162). -/
  | rxFlush
  /-- `SC.REQ budget` (R181, R182). -/
  | scReq (budget : BitVec 8)
  /-- `SC.ATTEMPT` (R191). -/
  | scAttempt
  /-- `SC.ABORT` (R193). -/
  | scAbort
  /-- `DEC.FREQ B` (R196). -/
  | decFreq (bytes : ByteSeq)
  /-- `DEC.SPAN S` (R197). -/
  | decSpan (bytes : ByteSeq)
  /-- `DEC.VOLT raw`, 16 bits two's complement (R220). -/
  | decVolt (raw : BitVec 16)
  /-- `DEC.MODE code` (R223). -/
  | decMode (code : BitVec 8)
  /-- `RESERVED.OP`: operation code `0xC + code`, with whatever operands accompany it (R101, R259). -/
  | reservedOp (code : BitVec 2) (operands : ByteSeq)
  /-- `RDFREQ` (R134). -/
  | rdfreq
  /-- `RDMODE` (R135). -/
  | rdmode
  /-- `PWRON` (R136). -/
  | pwron
  /-- `PWROFF` (R137). -/
  | pwroff
  /-- `RDVOLT` (R138). -/
  | rdvolt
  /-- `SCOPEDISP.ON` (R139). -/
  | scopedispOn
  /-- `SCOPEDISP.OFF` (R140). -/
  | scopedispOff
  /-- `SCOPEOUT.ON` (R141). -/
  | scopeoutOn
  /-- `SCOPEOUT.OFF` (R142). -/
  | scopeoutOff
  /-- `RDSCOPE` (R143). -/
  | rdscope
  /-- `TXFRAME.GENERIC`: any frame `TX.ENCODE` can emit; the body is its command path and payload (R91, R130). -/
  | txframeGeneric (dst : Byte) (body : ByteSeq)
  /-- `RX.FREQ`: a received frame with path `03` (R95). -/
  | rxFreq (src : Byte) (payload : ByteSeq)
  /-- `RX.MODE`: path `04` (R95). -/
  | rxMode (src : Byte) (payload : ByteSeq)
  /-- `RX.PWRON`: path `18 01` (R95). -/
  | rxPwron (src : Byte) (payload : ByteSeq)
  /-- `RX.PWROFF`: path `18 00` (R95). -/
  | rxPwroff (src : Byte) (payload : ByteSeq)
  /-- `RX.VOLT`: path `15 15` (R95). -/
  | rxVolt (src : Byte) (payload : ByteSeq)
  /-- `RX.SCOPEDISP.ON`: path `27 10 01` (R95). -/
  | rxScopedispOn (src : Byte) (payload : ByteSeq)
  /-- `RX.SCOPEDISP.OFF`: path `27 10 00` (R95). -/
  | rxScopedispOff (src : Byte) (payload : ByteSeq)
  /-- `RX.SCOPEOUT.ON`: path `27 11 01` (R95). -/
  | rxScopeoutOn (src : Byte) (payload : ByteSeq)
  /-- `RX.SCOPEOUT.OFF`: path `27 11 00` (R95). -/
  | rxScopeoutOff (src : Byte) (payload : ByteSeq)
  /-- `RX.SCOPE`: path `27 00` with a payload too short for a sub-marker; a frame with one is of one of the next three
  rows (R96, R111, R160). -/
  | rxScope (frame : ShortScope)
  /-- `RX.SCOPE.FIRST`: path `27 00`, sub-marker `01` (R96, R184). -/
  | rxScopeFirst (src : Byte) (rest : ScopeRest)
  /-- `RX.SCOPE.LAST`: path `27 00`, sub-marker `11` (R96, R187). -/
  | rxScopeLast (src : Byte) (rest : ScopeRest)
  /-- `RX.SCOPE.MID`: path `27 00`, any other sub-marker (R96, R186). -/
  | rxScopeMid (src : Byte) (sub : Byte) (rest : ScopeRest)
  /-- `RX.UNKNOWN`: the body starts with no catalog path (R159). -/
  | rxUnknown (src : Byte) (cmd : Byte) (payload : ByteSeq)
deriving DecidableEq, Repr

/-- Where a transaction is presented: the command port (format OP), or as the wire frame of a transmit form
(TXFRAME) or of a received frame (RXFRAME) (R111). -/
inductive Lane where
  | op
  | tx
  | rx
deriving DecidableEq, Repr

/-- One transaction as bytes: an operation's image on the command port, or a whole wire frame (log 1, log 2, log 3). -/
structure Transaction where
  lane : Lane
  bytes : ByteSeq
deriving DecidableEq, Repr

/-- What an encoding is read with: `RIG_ADDR`, the field `a` of the catalog transmit rows, and `SCOPE_SUB_OFF`, where
the sub-marker of a scope-data frame stands (R96, R111). -/
structure Reading where
  rigAddr : Byte
  subOff : Nat
deriving DecidableEq, Repr

end Sys2Proof
end

