-- ==== Sys2Proof/Machine/Operands.lean ====
section
/-! DEFINITION. Operand forms: nibbles and slices (R8, R9), hexadecimal text (R10), the BCD frequency (R102, R196),
the span digits (R104, R197), the voltage and mode operands (R220, R223), the command-path split (R95), the scope
operand of a received frame (R96, R160), and the layout of a wire frame (R68, R90). -/

namespace Sys2Proof.Machine

/-- `hi(b) = b[7:4]` (R8). -/
def hi (b : Byte) : Nat := (b.extractLsb' 4 4).toNat

/-- `lo(b) = b[3:0]` (R8). -/
def lo (b : Byte) : Nat := (b.extractLsb' 0 4).toNat

/-- `S[a..b)` (R9): a slice that runs past the end is shorter. -/
def slice (S : ByteSeq) (a b : Nat) : ByteSeq := (S.take b).drop a

/-- Digit `k` of `hex(S)` (R10), if `S` has it. -/
def digit (S : ByteSeq) (k : Nat) : Option Nat := (S[k / 2]?).map (fun b => if k % 2 = 0 then hi b else lo b)

/-- One hexadecimal digit, upper case (R10, D26). -/
def hexChar (n : Nat) : Char := if n ≤ 9 then Char.ofNat (48 + n) else Char.ofNat (55 + n)

/-- The value of a hexadecimal digit, either case (R10, D26). -/
def hexValue (c : Char) : Option Nat :=
  if 48 ≤ c.toNat ∧ c.toNat ≤ 57 then some (c.toNat - 48)
  else if 65 ≤ c.toNat ∧ c.toNat ≤ 70 then some (c.toNat - 55)
  else if 97 ≤ c.toNat ∧ c.toNat ≤ 102 then some (c.toNat - 87)
  else none

/-- `hex(S)` as its characters (R10). -/
def hex : ByteSeq → List Char
  | [] => []
  | b :: bs => hexChar (hi b) :: hexChar (lo b) :: hex bs

/-- `unhex(T)`: the inverse of `hex` on texts of even length made of hexadecimal digits (R10). -/
def unhex : List Char → Option ByteSeq
  | [] => some []
  | [_] => none
  | c :: d :: rest =>
    match hexValue c, hexValue d, unhex rest with
    | some h, some l, some bs => some (BitVec.ofNat 8 (16 * h + l) :: bs)
    | _, _, _ => none

/-- Both nibbles of a byte are decimal digits (D14). -/
def decimalByte (b : Byte) : Bool := decide (hi b ≤ maxDigit) && decide (lo b ≤ maxDigit)

/-- The two decimal digits of a byte, the high nibble the tens (R69). -/
def bcdByte (b : Byte) : Nat := 10 * hi b + lo b

/-- The sum over `i` of `bcdByte B[i] * 100^i`: least significant byte first (R69, R102). -/
def bcdReversed : ByteSeq → Nat
  | [] => 0
  | b :: bs => bcdByte b + 100 * bcdReversed bs

/-- `DEC.FREQ` as a number of Hz (R196): 0 for a wrong length or a nibble above 9. -/
def frequencyHz (B : ByteSeq) : Nat :=
  if B.length ≠ freqLen then 0
  else if !B.all decimalByte then 0
  else bcdReversed B

/-- `decodeFrequency`, 34 bits (R196, R31). -/
def decodeFrequency (B : ByteSeq) : BitVec 34 := BitVec.ofNat 34 (frequencyHz B)

/-- `DEC.SPAN` as a number of Hz (R197, R104): only digits 2 to 5 are read. -/
def spanHzOf (S : ByteSeq) : Nat :=
  if S.length ≠ spanLen then 0
  else if !(slice S 1 3).all decimalByte then 0
  else
    let d2 := hi (S.getD 1 0)
    let d3 := lo (S.getD 1 0)
    let d4 := hi (S.getD 2 0)
    let d5 := lo (S.getD 2 0)
    d2 * 1000 + d3 * 100 + d4 * 100000 + d5 * 10000

/-- `decodeSpan`, 20 bits (R197, R32). -/
def decodeSpan (S : ByteSeq) : BitVec 20 := BitVec.ofNat 20 (spanHzOf S)

/-- The first segment of the voltage line ends below this raw value (R220). -/
abbrev voltKnee : Int := 14

/-- The piecewise-linear voltage of an in-range raw value, exact (R220). -/
def voltsInRange (raw : Int) : Rat :=
  if raw < voltKnee then 10 * (raw : Rat) / 13 else 6 * (raw : Rat) / 228 + 10

/-- The raw value is in 0 to 255 (R221). -/
def voltRawOk (raw : Int) : Bool := decide (0 ≤ raw) && decide (raw ≤ 255)

/-- `decodeSupplyVoltage`: the exact volts, 0 outside the range (R220, R221). -/
def decodeVolts (raw : Int) : Rat := if voltRawOk raw then voltsInRange raw else 0

/-- The index `DEC.MODE` returns (R223). -/
def modeIndex (code : BitVec 8) : Fin 18 :=
  if h : code.toNat ≤ modeMax then ⟨code.toNat, Nat.lt_succ_of_le h⟩ else modeDefault

/-- The name at an index of the mode table (R224). -/
def modeNameAt (i : Fin 18) : ModeName := modeTable[i]

/-- The longer of the best path so far and the next one (R95). -/
def longerPath (best : Option CatalogCmd) (k : CatalogCmd) : Option CatalogCmd :=
  match best with
  | none => some k
  | some b => if (catalogPath b).length < (catalogPath k).length then some k else some b

/-- The longest catalog path that is a leading part of `Y` (R95). -/
def findPath (Y : ByteSeq) : Option CatalogCmd :=
  (catalog.filter (fun k => (catalogPath k).isPrefixOf Y)).foldl longerPath none

/-- The command path of a body: the catalog path it starts with, else its first byte (R95). -/
def splitCmd (Y : ByteSeq) : ByteSeq :=
  match findPath Y with
  | some k => catalogPath k
  | none => Y.take 1

/-- The frame payload of a body: what follows its command path (R95). -/
def splitPayload (Y : ByteSeq) : ByteSeq := Y.drop (splitCmd Y).length

/-- The scope operand `(sub, P)` of a frame: of a non-echo `27 00` frame whose payload reaches the sub-marker
(R96, R160). -/
def scopeOperand (p : Config.Params) (echo : Bool) (cmd payload : ByteSeq) : Option (Byte × ByteSeq) :=
  if echo then none
  else if cmd ≠ catalogPath .readScope then none
  else (payload[p.scopeSubOff]?).map (fun sub => (sub, payload.drop p.scopeDataOff))

/-- The frame payload of a `27 00` frame with this sub-marker (R96). -/
def scopePayload (sub : Byte) (rest : ScopeRest) : ByteSeq := rest.before ++ sub :: rest.after

/-- A frame on the wire: preamble, destination, source, body, postamble (R68, R90). -/
def wireFrame (dst src : Byte) (body : ByteSeq) : ByteSeq :=
  [preambleByte, preambleByte, dst, src] ++ body ++ [postamble]

/-- A transmit frame has legal lengths: a command path of 1 to 3 bytes, a payload of at most 50 (R130, R131). -/
def txLengthsOk (cmd payload : ByteSeq) : Bool :=
  decide (cmdMin ≤ cmd.length) && decide (cmd.length ≤ cmdMax) && decide (payload.length ≤ maxPayload)

end Sys2Proof.Machine
end

