-- ==== Sys2Proof/Decode.lean ====
section
/-! DEFINITION. Decoding a transaction to an instruction, total on any bytes, and the encoder (R90 to R111). The
operation codes, the catalog and the frame layout are the spec's; how operands follow an operation code as bytes is
the model's own (R100 leaves it open; log 2). -/

namespace Sys2Proof

/-- Why a transaction is no encoding of an instruction: it then names no operation (log 17). -/
inductive DecodeError where
  /-- No byte at all. -/
  | emptyImage
  /-- The operation code is above 15: it has 4 bits (R100). -/
  | opWidth
  /-- An operand byte is missing. -/
  | missingOperand
  /-- A sequence operand's mark is neither 0 nor 1. -/
  | badSequenceMark
  /-- Bytes follow the last operand. -/
  | trailingBytes
  /-- The bytes do not begin with the preamble and two addresses (R90). -/
  | noPreamble
  /-- The frame does not end in the postamble (R90). -/
  | noPostambleAtEnd
  /-- A transmit frame whose source is not the host (R91), or a received one whose destination is not (R92). -/
  | wrongHostAddress
  /-- A frame without a command byte (R90, R155). -/
  | emptyBody
  /-- A transmit frame longer than `TX.ENCODE` can emit (R91). -/
  | bodyTooLong
  /-- A received frame ends at its first `FD` (R93). -/
  | earlyPostamble
deriving DecidableEq, Repr

open Machine (preambleByte postamble hostAddrValue CatalogCmd catalog catalogPath findPath wireFrame scopePayload markFirst markLast
  cmdMax maxPayload)

/-! ### Operand images on the command port (log 2) -/

/-- A sequence operand: each byte preceded by a mark 1, a mark 0 after the last; the operand and what follows it. -/
def takeSeq : ByteSeq → Except DecodeError (ByteSeq × ByteSeq)
  | [] => .error .missingOperand
  | m :: rest =>
    if m = 0 then .ok ([], rest)
    else if m = 1 then
      match rest with
      | [] => .error .missingOperand
      | b :: rest' =>
        match takeSeq rest' with
        | .ok (q, r) => .ok (b :: q, r)
        | .error e => .error e
    else .error .badSequenceMark

/-- The image of a sequence operand. -/
def putSeq : ByteSeq → ByteSeq
  | [] => [0]
  | b :: bs => 1 :: b :: putSeq bs

/-- An operation without operands. -/
def noOperand (i : Instr) (rest : ByteSeq) : Except DecodeError Instr :=
  if rest.isEmpty then .ok i else .error .trailingBytes

/-- An operation with one byte operand. -/
def byteOperand (f : Byte → Instr) (rest : ByteSeq) : Except DecodeError Instr :=
  match rest with
  | [] => .error .missingOperand
  | x :: more => noOperand (f x) more

/-- An operation with one 16-bit operand, its low byte first. -/
def wordOperand (f : BitVec 16 → Instr) (rest : ByteSeq) : Except DecodeError Instr :=
  match rest with
  | l :: h :: more => noOperand (f (h ++ l)) more
  | _ => .error .missingOperand

/-- An operation with one sequence operand. -/
def seqOperand (f : ByteSeq → Instr) (rest : ByteSeq) : Except DecodeError Instr :=
  match takeSeq rest with
  | .ok (q, more) => noOperand (f q) more
  | .error e => .error e

/-- The operands of `TX.ENCODE`: a byte and two sequences (R100, R130). -/
def txOperands (rest : ByteSeq) : Except DecodeError Instr :=
  match rest with
  | [] => .error .missingOperand
  | d :: more =>
    match takeSeq more with
    | .ok (c, more') => seqOperand (.txEncode d c) more'
    | .error e => .error e

/-- The operation codes of R100; codes 12 to 15 are reserved, whatever follows them (R101, R259). -/
def decodeOp : ByteSeq → Except DecodeError Instr
  | [] => .error .emptyImage
  | op :: rest =>
    match op.toNat with
    | 0 => noOperand .reset rest
    | 1 => seqOperand .cfgProfile rest
    | 2 => txOperands rest
    | 3 => byteOperand .rxByte rest
    | 4 => noOperand .rxFlush rest
    | 5 => byteOperand .scReq rest
    | 6 => noOperand .scAttempt rest
    | 7 => noOperand .scAbort rest
    | 8 => seqOperand .decFreq rest
    | 9 => seqOperand .decSpan rest
    | 10 => wordOperand .decVolt rest
    | 11 => byteOperand .decMode rest
    | n => if n < 16 then .ok (.reservedOp (BitVec.ofNat 2 n) rest) else .error .opWidth

/-! ### Wire frames (R90 to R99, R111) -/

/-- Destination, source and body of a whole wire frame (R90). -/
def frameParts : ByteSeq → Except DecodeError (Byte × Byte × ByteSeq)
  | p :: q :: dst :: src :: rest =>
    if p ≠ preambleByte ∨ q ≠ preambleByte then .error .noPreamble
    else if rest.getLast? ≠ some postamble then .error .noPostambleAtEnd
    else .ok (dst, src, rest.dropLast)
  | _ => .error .noPreamble

/-- The instruction of a catalog transmit form (R94, R134 to R143). -/
def catalogForm : CatalogCmd → Instr
  | .readFreq => .rdfreq
  | .readMode => .rdmode
  | .powerOn => .pwron
  | .powerOff => .pwroff
  | .readVolt => .rdvolt
  | .scopeDispOn => .scopedispOn
  | .scopeDispOff => .scopedispOff
  | .scopeOutOn => .scopeoutOn
  | .scopeOutOff => .scopeoutOff
  | .readScope => .rdscope

/-- The catalog form a transmit frame is of: its destination, the field `a`, is `RIG_ADDR` and its body a catalog path
(R94, R108, R111). -/
def catalogOf (rd : Reading) (dst : Byte) (body : ByteSeq) : Option CatalogCmd :=
  if dst = rd.rigAddr then catalog.find? (fun k => catalogPath k == body) else none

/-- A transmit frame: a catalog form, else the generic row, which holds any frame `TX.ENCODE` can emit (R91, R111). -/
def decodeTx (rd : Reading) (bytes : ByteSeq) : Except DecodeError Instr :=
  match frameParts bytes with
  | .error e => .error e
  | .ok (dst, src, body) =>
    if src ≠ hostAddrValue then .error .wrongHostAddress
    else
      match catalogOf rd dst body with
      | some k => .ok (catalogForm k)
      | none =>
        if body.isEmpty then .error .emptyBody
        else if cmdMax + maxPayload < body.length then .error .bodyTooLong
        else .ok (.txframeGeneric dst body)

/-- The row of a scope-data frame by its sub-marker `R[SCOPE_SUB_OFF]`, for any offset (R96, R97, R111). -/
def classifyScope (rd : Reading) (src : Byte) (payload : ByteSeq) : Instr :=
  match payload[rd.subOff]? with
  | none => .rxScope { src := src, payload := payload }
  | some sub =>
    let rest : ScopeRest := { before := payload.take rd.subOff, after := payload.drop (rd.subOff + 1) }
    if sub = markFirst then .rxScopeFirst src rest
    else if sub = markLast then .rxScopeLast src rest
    else .rxScopeMid src sub rest

/-- The row of an accepted frame by its command path (R111). -/
def classifyRx (rd : Reading) (src : Byte) (k : CatalogCmd) (payload : ByteSeq) : Instr :=
  match k with
  | .readFreq => .rxFreq src payload
  | .readMode => .rxMode src payload
  | .powerOn => .rxPwron src payload
  | .powerOff => .rxPwroff src payload
  | .readVolt => .rxVolt src payload
  | .scopeDispOn => .rxScopedispOn src payload
  | .scopeDispOff => .rxScopedispOff src payload
  | .scopeOutOn => .rxScopeoutOn src payload
  | .scopeOutOff => .rxScopeoutOff src payload
  | .readScope => classifyScope rd src payload

/-- A received frame for the host (R92): it ends at its first `FD` (R93). -/
def decodeRx (rd : Reading) (bytes : ByteSeq) : Except DecodeError Instr :=
  match frameParts bytes with
  | .error e => .error e
  | .ok (dst, src, body) =>
    if dst ≠ hostAddrValue then .error .wrongHostAddress
    else if (src :: body).contains postamble then .error .earlyPostamble
    else
      match body with
      | [] => .error .emptyBody
      | c :: rest =>
        match findPath body with
        | some k => .ok (classifyRx rd src k (body.drop (catalogPath k).length))
        | none => .ok (.rxUnknown src c rest)

/-- Decoding a transaction. -/
def decode (rd : Reading) (t : Transaction) : Except DecodeError Instr :=
  match t.lane with
  | .op => decodeOp t.bytes
  | .tx => decodeTx rd t.bytes
  | .rx => decodeRx rd t.bytes

/-! ### The encoder -/

/-- A transaction on the command port. -/
def opImage (op : Byte) (operands : ByteSeq) : Transaction := { lane := .op, bytes := op :: operands }

/-- A transmit frame (R91). -/
def txImage (dst : Byte) (body : ByteSeq) : Transaction := { lane := .tx, bytes := wireFrame dst hostAddrValue body }

/-- A catalog transmit form: its frame, with `RIG_ADDR` as the field `a` (R108, R111). -/
def catalogImage (rd : Reading) (k : CatalogCmd) : Transaction := txImage rd.rigAddr (catalogPath k)

/-- A received frame with a catalog command path (R92). -/
def rxImage (k : CatalogCmd) (src : Byte) (payload : ByteSeq) : Transaction :=
  { lane := .rx, bytes := wireFrame hostAddrValue src (catalogPath k ++ payload) }

/-- The encoding of an instruction. -/
def encode (rd : Reading) : Instr → Transaction
  | .reset => opImage 0x0 []
  | .cfgProfile name => opImage 0x1 (putSeq name)
  | .txEncode dst cmd payload => opImage 0x2 (dst :: (putSeq cmd ++ putSeq payload))
  | .rxByte x => opImage 0x3 [x]
  | .rxFlush => opImage 0x4 []
  | .scReq budget => opImage 0x5 [budget]
  | .scAttempt => opImage 0x6 []
  | .scAbort => opImage 0x7 []
  | .decFreq bytes => opImage 0x8 (putSeq bytes)
  | .decSpan bytes => opImage 0x9 (putSeq bytes)
  | .decVolt raw => opImage 0xA [raw.extractLsb' 0 8, raw.extractLsb' 8 8]
  | .decMode code => opImage 0xB [code]
  | .reservedOp code operands => opImage (BitVec.ofNat 8 (12 + code.toNat)) operands
  | .rdfreq => catalogImage rd .readFreq
  | .rdmode => catalogImage rd .readMode
  | .pwron => catalogImage rd .powerOn
  | .pwroff => catalogImage rd .powerOff
  | .rdvolt => catalogImage rd .readVolt
  | .scopedispOn => catalogImage rd .scopeDispOn
  | .scopedispOff => catalogImage rd .scopeDispOff
  | .scopeoutOn => catalogImage rd .scopeOutOn
  | .scopeoutOff => catalogImage rd .scopeOutOff
  | .rdscope => catalogImage rd .readScope
  | .txframeGeneric dst body => txImage dst body
  | .rxFreq src payload => rxImage .readFreq src payload
  | .rxMode src payload => rxImage .readMode src payload
  | .rxPwron src payload => rxImage .powerOn src payload
  | .rxPwroff src payload => rxImage .powerOff src payload
  | .rxVolt src payload => rxImage .readVolt src payload
  | .rxScopedispOn src payload => rxImage .scopeDispOn src payload
  | .rxScopedispOff src payload => rxImage .scopeDispOff src payload
  | .rxScopeoutOn src payload => rxImage .scopeOutOn src payload
  | .rxScopeoutOff src payload => rxImage .scopeOutOff src payload
  | .rxScope frame => rxImage .readScope frame.src frame.payload
  | .rxScopeFirst src rest => rxImage .readScope src (scopePayload markFirst rest)
  | .rxScopeLast src rest => rxImage .readScope src (scopePayload markLast rest)
  | .rxScopeMid src sub rest => rxImage .readScope src (scopePayload sub rest)
  | .rxUnknown src cmd payload => { lane := .rx, bytes := wireFrame hostAddrValue src (cmd :: payload) }

/-- What the table's rows are written for: the reset value of `RIG_ADDR` and the default offset (R42, R111). -/
def Reading.atReset : Reading := { rigAddr := 0x00, subOff := 0 }

/-- The format of an instruction's row (R111), the same in every reading. -/
def Instr.format (i : Instr) : Lane := (encode Reading.atReset i).lane

/-! ### Words of spec/opcode_table.json (log 6) -/

/-- The `n` low bytes of `w`, the least significant first. -/
def bytesOfNat : Nat → Nat → ByteSeq
  | 0, _ => []
  | n + 1, w => BitVec.ofNat 8 w :: bytesOfNat n (w / 256)

/-- The wire bytes of a table word: the table numbers a wire row with its first wire byte most significant; a word
whose preamble stands at the other end is read from there (log 6). -/
def tableWireBytes (n w : Nat) : ByteSeq :=
  let up := bytesOfNat n w
  if up.take 2 == [preambleByte, preambleByte] then up else up.reverse

/-- The zero operands of each operation code, in the images of log 2. -/
def zeroOperands (op : Nat) : ByteSeq :=
  match op with
  | 1 | 3 | 5 | 8 | 9 | 11 => [0]
  | 2 => [0, 0, 0]
  | 10 => [0, 0]
  | _ => []

/-- The transaction a table word stands for: an operation code with zero operands; a whole transmit frame; or the
leading bytes of a frame, completed with the zero bytes a body needs and with the postamble, which those rows leave
out (R111, log 6). In a catalog row the field `a` is `RIG_ADDR`, so the register's value stands there. -/
def tableTransaction (rig : Byte) (nbits w : Nat) : Transaction :=
  let n := (nbits + 7) / 8
  if n ≤ 1 then { lane := .op, bytes := BitVec.ofNat 8 w :: zeroOperands w }
  else
    let bs := tableWireBytes n w
    if n = 4 then { lane := .tx, bytes := bs ++ [0x00, postamble] }
    else if 6 ≤ n ∧ bs.getLast? = some postamble then { lane := .tx, bytes := bs.set 2 rig }
    else if n = 3 then { lane := .rx, bytes := bs ++ [0x00, 0x00, postamble] }
    else { lane := .rx, bytes := bs ++ [postamble] }

/-- The instruction the decoder reads from a word of the opcode table. -/
def decodeTableWord (nbits w : Nat) : Option Instr :=
  match decode Reading.atReset (tableTransaction Reading.atReset.rigAddr nbits w) with
  | .ok i => some i
  | .error _ => none

end Sys2Proof
end

