-- ==== Sys2Proof/Machine/State.lean ====
section
/-! DEFINITION. The state of the block (R20 to R42), plain data, and its reset: `Block` holds exactly the registers of
R20's table, in its four groups. `State` is the block with what the host holds of it: no register (R21, R39). -/

namespace Sys2Proof.Machine

/-- `HOST_ADDR` is hard-wired (R23): the register has one value, so nothing can write another (log 18). -/
inductive HostAddr where
  | wired
deriving DecidableEq, Repr

/-- What a read of `HOST_ADDR` gives (R23). -/
def HostAddr.value : HostAddr → Byte
  | .wired => hostAddrValue

/-- The configuration group of R20. -/
structure ConfigRegs where
  /-- `HOST_ADDR` (R23). -/
  hostAddr : HostAddr
  /-- `RIG_ADDR` (R24). -/
  rigAddr : Byte
  /-- `MAX_BAUD` (R25). -/
  maxBaud : BitVec 32
  /-- `PROFILE_SEL` (R26). -/
  profileSel : BitVec 2
deriving DecidableEq, Repr

/-- The states of the scanner, codes 0 to 3 in this order (R27). -/
inductive Rxs where
  | hunt
  | pre1
  | dst
  | body
deriving DecidableEq, Repr

/-- The scanner group of R20. -/
structure Scanner where
  /-- `RXS` (R27). -/
  rxs : Rxs
  /-- `RXBUF` (R28). -/
  rxbuf : ByteSeq
deriving DecidableEq, Repr

/-- The states of the reassembler, codes 0 to 3 in this order (R29). -/
inductive ScState where
  | idle
  | awaitingHeader
  | accumulating
  | complete
deriving DecidableEq, Repr

/-- The outcomes of a session, codes 0 to 4 in this order (R35). -/
inductive ScResult where
  | none
  | ok
  | decodeFail
  | incomplete
  | aborted
deriving DecidableEq, Repr

/-- The cells of the indexed space `AMP`: (index, byte), indices strictly rising; an unlisted index has no value
(R65, R70, log 10). -/
abbrev Memory := List Host.Cell

/-- The reassembler group of R20. -/
structure Reassembler where
  /-- `SC_STATE` (R29). -/
  scState : ScState
  /-- `ACC` (R30). -/
  acc : ByteSeq
  /-- `CENTER_HZ` (R31). -/
  centerHz : BitVec 34
  /-- `SPAN_HZ` (R32). -/
  spanHz : BitVec 20
  /-- `ATT_BUDGET` (R33). -/
  attBudget : BitVec 8
  /-- `ATT_COUNT` (R34). -/
  attCount : BitVec 8
  /-- `SC_RESULT` (R35). -/
  scResult : ScResult
  /-- `AMP` (R36). -/
  amp : Memory
  /-- `AMP_LEN` (R36). -/
  ampLen : Nat
deriving DecidableEq, Repr

/-- The frame record `RX.BYTE` returns (R161). -/
structure FrameRecord where
  dst : Byte
  src : Byte
  echo : Bool
  cmd : ByteSeq
  payload : ByteSeq
  known : Bool
  scope : Option (Byte × ByteSeq)
deriving DecidableEq, Repr

/-- What an operation returns (R100). -/
inductive Result where
  /-- No result. -/
  | none
  /-- `SC.REQ` accepted (R181). -/
  | ok
  /-- The operation was refused (R11, R101, R131, R182). -/
  | refused
  /-- `(RIG_ADDR, MAX_BAUD, known)` of `CFG.PROFILE` (R121). -/
  | profile (busAddress : Byte) (maxBaudRate : BitVec 32) (known : Bool)
  /-- The frame bytes of `TX.ENCODE` (R130). -/
  | txBytes (bytes : ByteSeq)
  /-- The frame of `RX.BYTE` (R161). -/
  | frame (r : FrameRecord)
  /-- The frames of the `RX.BYTE` operations of a whole received frame, in order (log 3). -/
  | frames (rs : List FrameRecord)
  /-- `SC_RESULT` after `SC.ATTEMPT` (R191). -/
  | session (r : ScResult)
  /-- Hz of `DEC.FREQ` (R196). -/
  | freqHz (hz : BitVec 34)
  /-- Hz of `DEC.SPAN` (R197). -/
  | spanHz (hz : BitVec 20)
  /-- `(volts, ok)` of `DEC.VOLT`, the exact rational (R220, R222). -/
  | volts (v : Rat) (ok : Bool)
  /-- `(index, name)` of `DEC.MODE` (R223). -/
  | mode (index : Fin 18) (name : ModeName)
deriving DecidableEq, Repr

/-- The whole state of the block: exactly the registers of R20, in the four groups of its table. -/
structure Block where
  /-- Configuration registers (R23 to R26). -/
  cfg : ConfigRegs
  /-- Scanner registers (R27, R28). -/
  scan : Scanner
  /-- Reassembler registers (R29 to R36). -/
  sc : Reassembler
  /-- `ERR`, five sticky bits (R37). -/
  err : BitVec 5
deriving DecidableEq, Repr

/-- The state the machine steps: the block, and beside it what the spec keeps outside the block's state (R21, R39) and
a step of the host's interface needs. -/
structure State extends Block where
  /-- The transmit stream: the bytes put and not yet taken off by the host, to whom it belongs (R39, R60, R61, log 9). -/
  tx : ByteSeq
  /-- What the last operation returned (R21: a result, no register; log 8). -/
  result : Result
  /-- The operations the host has presented, the oldest first (R12; log 1). -/
  port : List Transaction
  /-- The implementation parameters (R7; log 7). -/
  params : Config.Params
deriving DecidableEq, Repr

/-- Reasons the machine stops with a fault: none, the block never traps and never hangs (R250, R298). -/
inductive Fault where
deriving DecidableEq, Repr

/-- Reasons the model gives no meaning. -/
inductive Refusal where
  /-- Raised by `exec` for an instruction that has no meaning yet: by none now. Safe: nothing can be proved of its
  effect. -/
  | notModelled (mnemonic : String)
deriving DecidableEq, Repr

/-- The scanner after reset (R42). -/
def Scanner.reset : Scanner := { rxs := .hunt, rxbuf := [] }

/-- The reassembler after reset (R42); the contents of `AMP` are unspecified and hold no value (R299, log 10). -/
def Reassembler.reset : Reassembler :=
  { scState := .idle, acc := [], centerHz := 0, spanHz := 0, attBudget := 15, attCount := 0, scResult := .none,
    amp := [], ampLen := 0 }

/-- The configuration after reset: the default profile (R42). -/
def ConfigRegs.reset : ConfigRegs := { hostAddr := .wired, rigAddr := 0x00, maxBaud := 19200, profileSel := 0 }

/-- The registers after reset (R42). -/
def Block.reset : Block :=
  { cfg := ConfigRegs.reset, scan := Scanner.reset, sc := Reassembler.reset, err := 0 }

/-- The machine right after power-on (R42, R280, R281), with no operation presented, nothing returned yet and the
default parameters (log 1, log 7, log 8). -/
def State.reset : State :=
  { toBlock := Block.reset, tx := [], result := .none, port := [], params := defaultParams }

/-- What an encoding presented now is read with (R96, R108, R111). -/
def State.reading (s : State) : Reading := { rigAddr := s.cfg.rigAddr, subOff := s.params.scopeSubOff }

end Sys2Proof.Machine
end

