-- ==== Sys2Proof/Machine/Flags.lean ====
section
/-! DEFINITION. The flags: the five sticky bits of `ERR` (R37) and the flag-like results `echo`, `known` and `ok`
(R38). -/

namespace Sys2Proof.Machine

/-- The bits of `ERR` (R37). -/
inductive ErrBit where
  | cfgUnknown
  | txArg
  | rxOverrun
  | scBusy
  | opIllegal
deriving DecidableEq, Repr

/-- The bit number of a flag (R37). -/
def errIndex : ErrBit → Fin 5
  | .cfgUnknown => 0
  | .txArg => 1
  | .rxOverrun => 2
  | .scBusy => 3
  | .opIllegal => 4

/-- `ERR` with one more bit set; the others stay (R37). -/
def errSet (b : ErrBit) (e : BitVec 5) : BitVec 5 := e ||| (1#5 <<< (errIndex b).val)

/-- A flag of `ERR` is set. -/
def errTest (b : ErrBit) (e : BitVec 5) : Bool := e.getLsbD (errIndex b).val

/-- `echo <- (src = HOST_ADDR)` (R158). -/
def echoFlag (host src : Byte) : Bool := src == host

/-- `known`: the body starts with a catalog path (R95, R159). -/
def knownFlag (Y : ByteSeq) : Bool := (findPath Y).isSome

/-- The `ok` of `DEC.VOLT` (R220, R221). -/
def voltOkFlag (raw : Int) : Bool := voltRawOk raw

end Sys2Proof.Machine
end

