-- ==== Sys2Proof/Machine/Ops.lean ====
section
/-! DEFINITION. The named operations over the registers and the buffers: one update per group of registers, the space
`AMP` (R65, R70), the transmit stream (R61), and raising an error event (R250 to R259). -/

namespace Sys2Proof.Machine

/-! ### One update per group -/

def State.setCfg (s : State) (c : ConfigRegs) : State := { s with cfg := c }
def State.setScan (s : State) (r : Scanner) : State := { s with scan := r }
def State.setSc (s : State) (q : Reassembler) : State := { s with sc := q }
def State.setErr (s : State) (e : BitVec 5) : State := { s with err := e }
def State.setTx (s : State) (t : ByteSeq) : State := { s with tx := t }
def State.setResult (s : State) (r : Result) : State := { s with result := r }
def State.setPort (s : State) (p : List Transaction) : State := { s with port := p }

/-- An operation always runs to its end and returns (R250): the next state, with its result. -/
def returning (r : Result) (s : State) : Host.Outcome State Fault Refusal := .next (s.setResult r)

/-! ### The space AMP -/

/-- The byte at an index of the cells, if one is listed. -/
def Memory.read (m : Memory) (i : Nat) : Option Byte := (m.find? (fun c => c.1 == i)).map (·.2)

/-- The cells of a byte sequence laid out from index `k` on. -/
def Memory.layout : Nat → ByteSeq → Memory
  | _, [] => []
  | k, b :: bs => (k, b) :: Memory.layout (k + 1) bs

/-- `AMP[i] <- A[i]`, the whole space at once (R65, R187). -/
def Memory.fill (A : ByteSeq) : Memory := Memory.layout 0 A

/-- The cells while `AMP_LEN = 0`: none (R299, log 10). -/
def Memory.empty : Memory := []

/-- The canonical form: indices strictly rising, each below 475. An unlisted index has no value, so no cell can equal
what it reads as. -/
def Memory.wf (m : Memory) : Bool :=
  decide (m.Pairwise (fun a b => a.1 < b.1)) && m.all (fun c => decide (c.1 < nSamples))

/-- The host's read of `AMP[i]`: refused, with no value, at or above `AMP_LEN` (R65). -/
def State.readAmp (s : State) (i : Nat) : Option Byte :=
  if i < s.sc.ampLen then Memory.read s.sc.amp i else none

/-- The array the host sees, `AMP[0..AMP_LEN)` (R36, R194). -/
def State.amplitudes (s : State) : ByteSeq := (List.range s.sc.ampLen).filterMap s.readAmp

/-- The spaces `MemRead` names (R11, R70). -/
inductive Space where
  | rxbuf
  | acc
  | amp
deriving DecidableEq, Repr

/-- `MemRead(space, i, n)`: defined only when the indices are below the space's current length (R70). -/
def State.memRead (s : State) (space : Space) (i n : Nat) : Option ByteSeq :=
  match space with
  | .rxbuf => if i + n ≤ s.scan.rxbuf.length then some (slice s.scan.rxbuf i (i + n)) else none
  | .acc => if i + n ≤ s.sc.acc.length then some (slice s.sc.acc i (i + n)) else none
  | .amp => if i + n ≤ s.sc.ampLen then some (slice s.amplitudes i (i + n)) else none

/-! ### The transmit stream -/

/-- `TxPut(F)`: the bytes of `F` at the end of the stream, in order (R61). -/
def State.txPut (s : State) (F : ByteSeq) : State := s.setTx (s.tx ++ F)

/-! ### Raising an error event -/

/-- The sub-causes of a decode mismatch (R253). -/
inductive DecodeCause where
  | freqLen
  | freqDigit
  | spanLen
  | spanDigit
  | voltRange
  | modeRange
  | scopeLen
  | missingFrame
deriving DecidableEq, Repr

/-- The error events (R251). -/
inductive Event where
  | transportFailure
  | decodeMismatch (cause : DecodeCause)
  | unknownConfig (name : ByteSeq)
  | reassemblyTimeout
  | txArg
  | rxOverrun
  | scBusy
  | opIllegal
deriving DecidableEq, Repr

/-- The code of an event, a label held by no register (R251). -/
def eventCode : Event → Nat
  | .transportFailure => 1
  | .decodeMismatch _ => 2
  | .unknownConfig _ => 3
  | .reassemblyTimeout => 4
  | .txArg => 5
  | .rxOverrun => 6
  | .scBusy => 7
  | .opIllegal => 8

/-- The sticky bit an event sets, if it has one (R251). -/
def eventFlag : Event → Option ErrBit
  | .transportFailure => none
  | .decodeMismatch _ => none
  | .unknownConfig _ => some .cfgUnknown
  | .reassemblyTimeout => none
  | .txArg => some .txArg
  | .rxOverrun => some .rxOverrun
  | .scBusy => some .scBusy
  | .opIllegal => some .opIllegal

/-- The result code an event records, if it has one (R251). -/
def eventResult : Event → Option ScResult
  | .decodeMismatch .scopeLen => some .decodeFail
  | .reassemblyTimeout => some .incomplete
  | _ => none

/-- The reassembler's part of an event: its result code (R251). -/
def raiseSc (e : Event) (q : Reassembler) : Reassembler :=
  match eventResult e with
  | some r => { q with scResult := r }
  | none => q

/-- `raise E` (R11, R250): set the flag or the result code of R251, or nothing, and go on; no control transfer, no
saved state, no mode (R262). There is no return to model: flags are cleared only by `RESET` (R263). -/
def State.raise (s : State) (e : Event) : State :=
  let s1 := s.setSc (raiseSc e s.sc)
  match eventFlag e with
  | some b => s1.setErr (errSet b s.err)
  | none => s1

/-- Raise an event if there is a cause. -/
def State.raiseIf (s : State) (cause : Option Event) : State :=
  match cause with
  | some e => s.raise e
  | none => s

end Sys2Proof.Machine
end

