-- ==== Sys2Proof/Machine/Decoders.lean ====
section
/-! DEFINITION. The numeric decoders `DEC.FREQ`, `DEC.SPAN` (43_scope_reassembler.md), `DEC.VOLT` and `DEC.MODE`
(44_numeric_decoders.md). A sentinel case raises `DECODE_MISMATCH`, whose whole effect is the result (R253). -/

namespace Sys2Proof.Machine

/-- The sub-cause of a frequency that does not decode (R253). -/
def freqCause (B : ByteSeq) : Option Event :=
  if B.length ≠ freqLen then some (.decodeMismatch .freqLen)
  else if B.all decimalByte then none
  else some (.decodeMismatch .freqDigit)

/-- The sub-cause of a span that does not decode (R253). -/
def spanCause (S : ByteSeq) : Option Event :=
  if S.length ≠ spanLen then some (.decodeMismatch .spanLen)
  else if (slice S 1 3).all decimalByte then none
  else some (.decodeMismatch .spanDigit)

/-- The sub-cause of a voltage out of range (R253). -/
def voltCause (raw : Int) : Option Event := if voltRawOk raw then none else some (.decodeMismatch .voltRange)

/-- The sub-cause of a mode code out of range (R253). -/
def modeCause (code : BitVec 8) : Option Event :=
  if code.toNat ≤ modeMax then none else some (.decodeMismatch .modeRange)

/-- The meaning of `DEC.FREQ` (R196). -/
def execDecFreq (B : ByteSeq) (s : State) : Host.Outcome State Fault Refusal :=
  returning (.freqHz (decodeFrequency B)) (s.raiseIf (freqCause B))

/-- The meaning of `DEC.SPAN` (R197). -/
def execDecSpan (S : ByteSeq) (s : State) : Host.Outcome State Fault Refusal :=
  returning (.spanHz (decodeSpan S)) (s.raiseIf (spanCause S))

/-- The meaning of `DEC.VOLT` (R220, R221): the operand is signed, the result exact. -/
def execDecVolt (raw : BitVec 16) (s : State) : Host.Outcome State Fault Refusal :=
  returning (.volts (decodeVolts raw.toInt) (voltOkFlag raw.toInt)) (s.raiseIf (voltCause raw.toInt))

/-- The meaning of `DEC.MODE` (R223). -/
def execDecMode (code : BitVec 8) (s : State) : Host.Outcome State Fault Refusal :=
  returning (.mode (modeIndex code) (modeNameAt (modeIndex code))) (s.raiseIf (modeCause code))

/-- The voltage output word: `VOLT_REPR` as the separate last step after the exact result (R222, log 13). -/
def voltWord (r : Result) : Option Nat :=
  match r with
  | .volts v _ => some (Config.voltRepr v)
  | _ => none

end Sys2Proof.Machine
end

