-- ==== Sys2Proof/Machine/Profile.lean ====
section
/-! DEFINITION. `RESET` and `CFG.PROFILE` (40_profile.md), and the reserved operation codes (R101, R259). -/

namespace Sys2Proof.Machine

/-- `RESET` (R120, R280 to R282): every register takes its reset value and the transmit stream is empty (R281). What
is no register of the block stays: the parameters, and the operations not yet performed. -/
def resetState (s : State) : State := { State.reset with params := s.params, port := s.port }

/-- The meaning of `RESET`. -/
def execReset (s : State) : Host.Outcome State Fault Refusal := returning .none (resetState s)

/-- The row of the profile table whose name equals `name` byte for byte (R122, R124). DESIGN CHOICE, log 21, for
a table put in the default's place (I27): the first, should two rows have one name; and a row whose name is empty is
found like any other, as R121's pseudocode has it, though R121's corner case calls the empty name unknown (under the
default table it is). -/
def findProfile (table : List Config.ProfileRow) (name : ByteSeq) : Option Config.ProfileRow :=
  table.find? (fun r => r.modelName == name)

/-- Load a row into the configuration registers (R121). -/
def loadProfile (r : Config.ProfileRow) (c : ConfigRegs) : ConfigRegs :=
  { c with rigAddr := r.busAddress, maxBaud := r.maxBaudRate, profileSel := r.sel }

/-- The meaning of `CFG.PROFILE` (R121), with the table of the parameters (R122, I27): a known row, or the default profile with `UNKNOWN_CONFIG` (R123, R254). -/
def execCfgProfile (name : ByteSeq) (s : State) : Host.Outcome State Fault Refusal :=
  match findProfile s.params.profiles name with
  | some r => returning (.profile r.busAddress r.maxBaudRate true) (s.setCfg (loadProfile r s.cfg))
  | none =>
    returning (.profile defaultProfile.busAddress defaultProfile.maxBaudRate false)
      ((s.setCfg (loadProfile defaultProfile s.cfg)).raise (.unknownConfig name))

/-- The meaning of a reserved operation code, whatever operands accompany it: refused, with the flag set and nothing
else (R101, R259). -/
def execReservedOp (_code : BitVec 2) (_operands : ByteSeq) (s : State) : Host.Outcome State Fault Refusal :=
  returning .refused (s.raise .opIllegal)

end Sys2Proof.Machine
end

