-- ==== Sys2Proof/Machine/Scope.lean ====
section
/-! DEFINITION. The scope reassembler (43_scope_reassembler.md): `SC.REQ`, `SC.ATTEMPT`, `SC.ABORT` and the internal
event `SC.FRAME`, each first as an operation on the reassembler's registers. -/

namespace Sys2Proof.Machine

/-- A session is in flight (R29, R180). -/
def inFlight (q : Reassembler) : Bool :=
  match q.scState with
  | .idle => false
  | .awaitingHeader => true
  | .accumulating => true
  | .complete => false

/-- The session's data cleared (R181, R192, R193). -/
def clearSession (q : Reassembler) : Reassembler :=
  { q with acc := [], centerHz := 0, spanHz := 0, amp := Memory.empty, ampLen := 0 }

/-- `SC.REQ` outside a session (R181). -/
def scArm (budget : BitVec 8) (q : Reassembler) : Reassembler :=
  { clearSession q with scState := .awaitingHeader, attBudget := budget, attCount := 0, scResult := .none }

/-- The header transition (R184, R98). -/
def scHeader (P : ByteSeq) (q : Reassembler) : Reassembler :=
  { q with
    centerHz := decodeFrequency (slice P hdrSkip (hdrSkip + freqLen))
    spanHz := decodeSpan (slice P (hdrSkip + freqLen) hdrLen)
    acc := P.drop hdrLen
    scState := .accumulating }

/-- Completion on the accumulated total `A` (R187 to R189): 475 bytes exactly, or `DECODE_MISMATCH(SCOPE_LEN)`. -/
def scComplete (A : ByteSeq) (q : Reassembler) : Reassembler :=
  if A.length = nSamples then
    { q with amp := Memory.fill A, ampLen := nSamples, scResult := .ok, acc := [], scState := .complete }
  else
    { raiseSc (.decodeMismatch .scopeLen) q with amp := Memory.empty, ampLen := 0, acc := [], scState := .complete }

/-- `SC.FRAME(sub, P)`, one case per state and marker (R183 to R190). -/
def scFrame (sub : Byte) (P : ByteSeq) (q : Reassembler) : Reassembler :=
  match q.scState with
  | .idle => q
  | .awaitingHeader => if sub = markFirst then scHeader P q else q
  | .accumulating => if sub = markLast then scComplete (q.acc ++ P) q else { q with acc := q.acc ++ P }
  | .complete => q

/-- Abandonment: `REASSEMBLY_TIMEOUT` and the session discarded (R192, R255). -/
def scAbandon (q : Reassembler) : Reassembler :=
  { clearSession (raiseSc .reassemblyTimeout q) with scState := .idle }

/-- `SC.ATTEMPT` on the registers (R191): the comparison is on numbers (R8); the register keeps 8 bits (log 11). -/
def scCount (q : Reassembler) : Reassembler :=
  if inFlight q then
    if q.attBudget.toNat ≤ q.attCount.toNat + 1 then scAbandon { q with attCount := q.attCount + 1 }
    else { q with attCount := q.attCount + 1 }
  else q

/-- `SC.ABORT` on the registers (R193). -/
def scDiscard (q : Reassembler) : Reassembler :=
  { clearSession q with scState := .idle, scResult := if inFlight q then .aborted else .none }

/-- The meaning of `SC.REQ` (R181); refused with `SC_BUSY` while a session is in flight (R182, R258). -/
def execScReq (budget : BitVec 8) (s : State) : Host.Outcome State Fault Refusal :=
  if inFlight s.sc then returning .refused (s.raise .scBusy) else returning .ok (s.setSc (scArm budget s.sc))

/-- The meaning of `SC.ATTEMPT` (R191): the result is `SC_RESULT` after the operation. -/
def execScAttempt (s : State) : Host.Outcome State Fault Refusal :=
  returning (.session (scCount s.sc).scResult) (s.setSc (scCount s.sc))

/-- The meaning of `SC.ABORT` (R193). -/
def execScAbort (s : State) : Host.Outcome State Fault Refusal := returning .none (s.setSc (scDiscard s.sc))

end Sys2Proof.Machine
end

