-- ==== Sys2Proof/Machine/RxScan.lean ====
section
/-! DEFINITION. The receive scanner, the frame dispatcher, `RX.BYTE` and `RX.FLUSH` (42_rx_scan.md). -/

namespace Sys2Proof.Machine

/-- What a scanner step hands on (R150): nothing, the bytes of an accepted candidate (R155), or an overrun (R156). -/
inductive ScanOut where
  | quiet
  | accepted (A : ByteSeq)
  | overrun
deriving DecidableEq, Repr

/-- The candidate buffer has no room for another byte (R154, R156); never, if the capacity is infinite. -/
def bufferFull (cap : Option Nat) (n : Nat) : Bool :=
  match cap with
  | none => false
  | some c => decide (c ≤ n)

/-- The scanner with nothing collected, in the state a byte seen in `HUNT` leads to (R151). -/
def huntOn (x : Byte) : Scanner := { rxs := if x = preambleByte then .pre1 else .hunt, rxbuf := [] }

/-- A candidate is long enough to be a frame: destination, source and a command byte (R155). -/
abbrev minCandidate : Nat := 3

/-- The postamble (R155): the candidate is accepted, or dropped silently if too short. -/
def closeCandidate (buf : ByteSeq) : ScanOut := if minCandidate ≤ buf.length then .accepted buf else .quiet

/-- One step of the scanner (R151 to R156, R169). -/
def scannerStep (cap : Option Nat) (host : Byte) (x : Byte) (r : Scanner) : Scanner × ScanOut :=
  match r.rxs with
  | .hunt => (huntOn x, .quiet)
  | .pre1 => ({ rxs := if x = preambleByte then .dst else .hunt, rxbuf := [] }, .quiet)
  | .dst =>
    if x = host then ({ rxs := .body, rxbuf := [x] }, .quiet)
    else ({ rxs := if x = preambleByte then .dst else .hunt, rxbuf := [] }, .quiet)
  | .body =>
    if x = postamble then ({ rxs := .hunt, rxbuf := [] }, closeCandidate r.rxbuf)
    else if bufferFull cap r.rxbuf.length then (huntOn x, .overrun)
    else ({ rxs := .body, rxbuf := r.rxbuf ++ [x] }, .quiet)

/-- `FRAME.EMIT(A)`: the frame record of an accepted candidate (R157 to R161). -/
def frameEmit (p : Config.Params) (host : Byte) (A : ByteSeq) : FrameRecord :=
  let src := A.getD 1 0
  let Y := A.drop 2
  let echo := echoFlag host src
  { dst := A.getD 0 0
    src := src
    echo := echo
    cmd := splitCmd Y
    payload := splitPayload Y
    known := knownFlag Y
    scope := scopeOperand p echo (splitCmd Y) (splitPayload Y) }

/-- Scope dispatch (R160): `SC.FRAME` for a scope-data frame with a sub-marker, else nothing. -/
def scopeDispatch (r : FrameRecord) (q : Reassembler) : Reassembler :=
  match r.scope with
  | some (sub, P) => scFrame sub P q
  | none => q

/-- The three stages of `RX.BYTE x` (R150): the state after it, and the frame it returns, if any. -/
def rxByteOp (x : Byte) (s : State) : State × Option FrameRecord :=
  let step := scannerStep s.params.rxbufCap s.cfg.hostAddr.value x s.scan
  let s1 := s.setScan step.1
  match step.2 with
  | .quiet => (s1, none)
  | .overrun => (s1.raise .rxOverrun, none)
  | .accepted A =>
    let r := frameEmit s.params s.cfg.hostAddr.value A
    (s1.setSc (scopeDispatch r s.sc), some r)

/-- `RX.BYTE` of each byte in order (R62, R163): the state at the end and the frames returned, in order. -/
def receiveBytes : ByteSeq → State → State × List FrameRecord
  | [], s => (s, [])
  | x :: xs, s =>
    let one := rxByteOp x s
    let more := receiveBytes xs one.1
    (more.1, one.2.toList ++ more.2)

/-- The result port after `RX.BYTE` (R150, R161). -/
def rxResult (r : Option FrameRecord) : Result :=
  match r with
  | some f => .frame f
  | none => .none

/-- The meaning of `RX.BYTE` (R150). -/
def execRxByte (x : Byte) (s : State) : Host.Outcome State Fault Refusal :=
  returning (rxResult (rxByteOp x s).2) (rxByteOp x s).1

/-- The meaning of `RX.FLUSH` (R162). -/
def execRxFlush (s : State) : Host.Outcome State Fault Refusal :=
  returning .none (s.setScan { rxs := .hunt, rxbuf := [] })

end Sys2Proof.Machine
end

