-- ==== Sys2Proof/Machine/RxFrames.lean ====
section
/-! DEFINITION. The fourteen classes of accepted received frames (R111): the block receives such a frame, that is the
host issues `RX.BYTE` for each of its bytes in order, in one step of the model (log 3). -/

namespace Sys2Proof.Machine

/-- Receiving a run of bytes, any bytes: `RX.BYTE` of each in order (R62, R105), the frames they return as result. -/
def receiveRun (bytes : ByteSeq) (s : State) : Host.Outcome State Fault Refusal :=
  let got := receiveBytes bytes s
  returning (.frames got.2) got.1

/-- Receiving a whole frame for the host with this source and body (R90, R92). -/
def receiveFrame (src : Byte) (body : ByteSeq) (s : State) : Host.Outcome State Fault Refusal :=
  receiveRun (wireFrame hostAddrValue src body) s

/-- The meaning of `RX.FREQ` (R95). -/
def execRxFreq (src : Byte) (payload : ByteSeq) (s : State) : Host.Outcome State Fault Refusal :=
  receiveFrame src (catalogPath .readFreq ++ payload) s

/-- The meaning of `RX.MODE` (R95). -/
def execRxMode (src : Byte) (payload : ByteSeq) (s : State) : Host.Outcome State Fault Refusal :=
  receiveFrame src (catalogPath .readMode ++ payload) s

/-- The meaning of `RX.PWRON` (R95). -/
def execRxPwron (src : Byte) (payload : ByteSeq) (s : State) : Host.Outcome State Fault Refusal :=
  receiveFrame src (catalogPath .powerOn ++ payload) s

/-- The meaning of `RX.PWROFF` (R95). -/
def execRxPwroff (src : Byte) (payload : ByteSeq) (s : State) : Host.Outcome State Fault Refusal :=
  receiveFrame src (catalogPath .powerOff ++ payload) s

/-- The meaning of `RX.VOLT` (R95). -/
def execRxVolt (src : Byte) (payload : ByteSeq) (s : State) : Host.Outcome State Fault Refusal :=
  receiveFrame src (catalogPath .readVolt ++ payload) s

/-- The meaning of `RX.SCOPEDISP.ON` (R95). -/
def execRxScopedispOn (src : Byte) (payload : ByteSeq) (s : State) : Host.Outcome State Fault Refusal :=
  receiveFrame src (catalogPath .scopeDispOn ++ payload) s

/-- The meaning of `RX.SCOPEDISP.OFF` (R95). -/
def execRxScopedispOff (src : Byte) (payload : ByteSeq) (s : State) : Host.Outcome State Fault Refusal :=
  receiveFrame src (catalogPath .scopeDispOff ++ payload) s

/-- The meaning of `RX.SCOPEOUT.ON` (R95). -/
def execRxScopeoutOn (src : Byte) (payload : ByteSeq) (s : State) : Host.Outcome State Fault Refusal :=
  receiveFrame src (catalogPath .scopeOutOn ++ payload) s

/-- The meaning of `RX.SCOPEOUT.OFF` (R95). -/
def execRxScopeoutOff (src : Byte) (payload : ByteSeq) (s : State) : Host.Outcome State Fault Refusal :=
  receiveFrame src (catalogPath .scopeOutOff ++ payload) s

/-- The meaning of `RX.SCOPE` (R96, R160). -/
def execRxScope (frame : ShortScope) (s : State) : Host.Outcome State Fault Refusal :=
  receiveFrame frame.src (catalogPath .readScope ++ frame.payload) s

/-- The meaning of `RX.SCOPE.FIRST` (R184). -/
def execRxScopeFirst (src : Byte) (rest : ScopeRest) (s : State) : Host.Outcome State Fault Refusal :=
  receiveFrame src (catalogPath .readScope ++ scopePayload markFirst rest) s

/-- The meaning of `RX.SCOPE.LAST` (R187). -/
def execRxScopeLast (src : Byte) (rest : ScopeRest) (s : State) : Host.Outcome State Fault Refusal :=
  receiveFrame src (catalogPath .readScope ++ scopePayload markLast rest) s

/-- The meaning of `RX.SCOPE.MID` (R186). -/
def execRxScopeMid (src sub : Byte) (rest : ScopeRest) (s : State) : Host.Outcome State Fault Refusal :=
  receiveFrame src (catalogPath .readScope ++ scopePayload sub rest) s

/-- The meaning of `RX.UNKNOWN` (R159). -/
def execRxUnknown (src cmd : Byte) (payload : ByteSeq) (s : State) : Host.Outcome State Fault Refusal :=
  receiveFrame src (cmd :: payload) s

/-- A transaction that is no encoding of an instruction. Receive bytes that are no whole frame for the host are received
like any others: on the wire nothing traps (R62, R105). Bytes on the command port, or a transmit frame, that name no
operation issue none, and the block moves only by an operation (R13): nothing changes. DESIGN CHOICE, log 17. -/
def unnamedTransaction (t : Transaction) (s : State) : Host.Outcome State Fault Refusal :=
  match t.lane with
  | .op => .next s
  | .tx => .next s
  | .rx => receiveRun t.bytes s

end Sys2Proof.Machine
end

