-- ==== Sys2Proof/Machine/TxEncode.lean ====
section
/-! DEFINITION. `TX.ENCODE`, the ten catalog transmit forms and the generic transmit frame (41_tx_encode.md). -/

namespace Sys2Proof.Machine

/-- `TX.ENCODE dst, cmd, payload` on the state (R130, R131): the frame on the transmit stream and returned, or
`TX_ARG` and refused. -/
def txEncodeOp (dst : Byte) (cmd payload : ByteSeq) (s : State) : Host.Outcome State Fault Refusal :=
  if txLengthsOk cmd payload then
    let F := wireFrame dst s.cfg.hostAddr.value (cmd ++ payload)
    returning (.txBytes F) (s.txPut F)
  else returning .refused (s.raise .txArg)

/-- A catalog form: `TX.ENCODE RIG_ADDR, path, []`, with `RIG_ADDR` read now (R108). -/
def catalogOp (k : CatalogCmd) (s : State) : Host.Outcome State Fault Refusal :=
  txEncodeOp s.cfg.rigAddr (catalogPath k) [] s

/-- The meaning of `TX.ENCODE` (R130). -/
def execTxEncode (dst : Byte) (cmd payload : ByteSeq) (s : State) : Host.Outcome State Fault Refusal :=
  txEncodeOp dst cmd payload s

/-- The meaning of `RDFREQ` (R134). -/
def execRdfreq (s : State) : Host.Outcome State Fault Refusal := catalogOp .readFreq s

/-- The meaning of `RDMODE` (R135). -/
def execRdmode (s : State) : Host.Outcome State Fault Refusal := catalogOp .readMode s

/-- The meaning of `PWRON` (R136). -/
def execPwron (s : State) : Host.Outcome State Fault Refusal := catalogOp .powerOn s

/-- The meaning of `PWROFF` (R137). -/
def execPwroff (s : State) : Host.Outcome State Fault Refusal := catalogOp .powerOff s

/-- The meaning of `RDVOLT` (R138). -/
def execRdvolt (s : State) : Host.Outcome State Fault Refusal := catalogOp .readVolt s

/-- The meaning of `SCOPEDISP.ON` (R139). -/
def execScopedispOn (s : State) : Host.Outcome State Fault Refusal := catalogOp .scopeDispOn s

/-- The meaning of `SCOPEDISP.OFF` (R140). -/
def execScopedispOff (s : State) : Host.Outcome State Fault Refusal := catalogOp .scopeDispOff s

/-- The meaning of `SCOPEOUT.ON` (R141). -/
def execScopeoutOn (s : State) : Host.Outcome State Fault Refusal := catalogOp .scopeOutOn s

/-- The meaning of `SCOPEOUT.OFF` (R142). -/
def execScopeoutOff (s : State) : Host.Outcome State Fault Refusal := catalogOp .scopeOutOff s

/-- The meaning of `RDSCOPE` (R143): it does not arm the reassembler. -/
def execRdscope (s : State) : Host.Outcome State Fault Refusal := catalogOp .readScope s

/-- The meaning of `TXFRAME.GENERIC`: the `TX.ENCODE` that emits this frame. The emitted frame and the legality do not
depend on where the body is cut into command path and payload, so it is cut after three bytes (log 5). -/
def execTxframeGeneric (dst : Byte) (body : ByteSeq) (s : State) : Host.Outcome State Fault Refusal :=
  txEncodeOp dst (body.take cmdMax) (body.drop cmdMax) s

end Sys2Proof.Machine
end

