-- ==== Sys2Proof/Machine/Dispatch.lean ====
section
/-! DEFINITION. One arm per instruction. -/

namespace Sys2Proof.Machine

/-- The effect of one instruction. -/
def exec (i : Instr) (s : State) : Host.Outcome State Fault Refusal :=
  match i with
  | .reset => Sys2Proof.Machine.execReset s
  | .cfgProfile name => Sys2Proof.Machine.execCfgProfile name s
  | .txEncode dst cmd payload => Sys2Proof.Machine.execTxEncode dst cmd payload s
  | .rxByte x => Sys2Proof.Machine.execRxByte x s
  | .rxFlush => Sys2Proof.Machine.execRxFlush s
  | .scReq budget => Sys2Proof.Machine.execScReq budget s
  | .scAttempt => Sys2Proof.Machine.execScAttempt s
  | .scAbort => Sys2Proof.Machine.execScAbort s
  | .decFreq bytes => Sys2Proof.Machine.execDecFreq bytes s
  | .decSpan bytes => Sys2Proof.Machine.execDecSpan bytes s
  | .decVolt raw => Sys2Proof.Machine.execDecVolt raw s
  | .decMode code => Sys2Proof.Machine.execDecMode code s
  | .reservedOp code operands => Sys2Proof.Machine.execReservedOp code operands s
  | .rdfreq => Sys2Proof.Machine.execRdfreq s
  | .rdmode => Sys2Proof.Machine.execRdmode s
  | .pwron => Sys2Proof.Machine.execPwron s
  | .pwroff => Sys2Proof.Machine.execPwroff s
  | .rdvolt => Sys2Proof.Machine.execRdvolt s
  | .scopedispOn => Sys2Proof.Machine.execScopedispOn s
  | .scopedispOff => Sys2Proof.Machine.execScopedispOff s
  | .scopeoutOn => Sys2Proof.Machine.execScopeoutOn s
  | .scopeoutOff => Sys2Proof.Machine.execScopeoutOff s
  | .rdscope => Sys2Proof.Machine.execRdscope s
  | .txframeGeneric dst body => Sys2Proof.Machine.execTxframeGeneric dst body s
  | .rxFreq src payload => Sys2Proof.Machine.execRxFreq src payload s
  | .rxMode src payload => Sys2Proof.Machine.execRxMode src payload s
  | .rxPwron src payload => Sys2Proof.Machine.execRxPwron src payload s
  | .rxPwroff src payload => Sys2Proof.Machine.execRxPwroff src payload s
  | .rxVolt src payload => Sys2Proof.Machine.execRxVolt src payload s
  | .rxScopedispOn src payload => Sys2Proof.Machine.execRxScopedispOn src payload s
  | .rxScopedispOff src payload => Sys2Proof.Machine.execRxScopedispOff src payload s
  | .rxScopeoutOn src payload => Sys2Proof.Machine.execRxScopeoutOn src payload s
  | .rxScopeoutOff src payload => Sys2Proof.Machine.execRxScopeoutOff src payload s
  | .rxScope frame => Sys2Proof.Machine.execRxScope frame s
  | .rxScopeFirst src rest => Sys2Proof.Machine.execRxScopeFirst src rest s
  | .rxScopeLast src rest => Sys2Proof.Machine.execRxScopeLast src rest s
  | .rxScopeMid src sub rest => Sys2Proof.Machine.execRxScopeMid src sub rest s
  | .rxUnknown src cmd payload => Sys2Proof.Machine.execRxUnknown src cmd payload s

end Sys2Proof.Machine
end

