-- ==== Sys2Proof/Machine/Step.lean ====
section
/-! DEFINITION. One step: the block performs the oldest operation the host has presented (R12, R74). -/

namespace Sys2Proof.Machine

/-- One step. With nothing presented the block stays as it is (R13.1, R265); else the oldest transaction is taken off
the queue, decoded with the registers as they stand, and performed to its end (R12). No step stops (R298). -/
def step (s : State) : Host.Outcome State Fault Refusal :=
  match s.port with
  | [] => .next s
  | t :: rest =>
    match decode s.reading t with
    | .ok i => exec i (s.setPort rest)
    | .error _ => unnamedTransaction t (s.setPort rest)

/-- The state with the transaction of a table word presented as the next operation (log 1, log 6). -/
def State.withFetchWord (s : State) (nbits w : Nat) : State :=
  s.setPort (tableTransaction s.cfg.rigAddr nbits w :: s.port)

end Sys2Proof.Machine
end

