-- ==== Sys2Proof/Machine/HostAgent.lean ====
section
/-! DEFINITION. The host agent (45_transport_host.md): the request discipline and the eight collaborator-facing calls
as sequences of operations of the block. Nothing here adds state or operations to the block. The serial line is an
input: whether a write succeeds, and what each read attempt returns. -/

namespace Sys2Proof.Machine

/-- The serial line as the host meets it in one call: arbitrary (R62, R230). DESIGN CHOICE, log 24: a transport failure
(R252) arises at the write alone, where R231 names it; the spec does not say whether one can arise on a read, and a
port that closes while it is read looks like reads that return nothing. -/
structure Line where
  /-- Writing to the line succeeds; else `TRANSPORT_FAILURE` (R252). -/
  writeOk : Bool
  /-- What each read attempt returns, possibly nothing; when the list ends the host makes no further attempt, or the
  attempts time out empty where the call loops on (R231, R232, log 15). -/
  reads : List ByteSeq
deriving DecidableEq, Repr

/-- `N_ATT`, the read attempts of a request (R231). -/
abbrev nAttempts : Nat := attBudgetDefault

/-- Default `MODE_EXTRACT`: the BCD reading of the first payload byte, else 255 (R236). PRESUMED default, log 14. -/
def modeExtractDefault (payload : ByteSeq) : BitVec 8 :=
  match payload with
  | [] => 255
  | b :: _ => if decimalByte b then BitVec.ofNat 8 (bcdByte b) else 255

/-- Default `VOLT_EXTRACT`: two payload bytes as four BCD digits, most significant first, else -1 (R237). PRESUMED
default (general knowledge, G3), log 14. -/
def voltExtractDefault (payload : ByteSeq) : BitVec 16 :=
  match payload with
  | a :: b :: _ => if decimalByte a && decimalByte b then BitVec.ofNat 16 (100 * bcdByte a + bcdByte b) else -1
  | _ => -1

/-- The host's open parameters (R236 to R240, D28, D29, D35), with the spec's defaults. No state. -/
structure HostParams where
  /-- `MODE_EXTRACT` (R236). -/
  modeExtract : ByteSeq → BitVec 8 := modeExtractDefault
  /-- `VOLT_EXTRACT` (R237). -/
  voltExtract : ByteSeq → BitVec 16 := voltExtractDefault
  /-- The frames of `startScopeReadout()` (R238). -/
  startForms : List Instr := [.scopedispOn, .scopeoutOn]
  /-- The frames of `stopScopeReadout()` (R239). -/
  stopForms : List Instr := [.scopeoutOff]
  /-- `SEND_RDSCOPE(isFirstRequest)` (R240). -/
  sendRdscope : Bool → Bool := fun _ => true

/-- The state after one operation the host issues; an operation always returns (R250). -/
def issue (i : Instr) (s : State) : State :=
  match exec i s with
  | .next t => t
  | .fault _ => s
  | .refused _ => s

/-- The host takes every byte off the transmit stream, in order (R61, log 9). -/
def takeTx (s : State) : ByteSeq × State := (s.tx, s.setTx [])

/-- The frame the last operation returned, if it returned one (R161). -/
def frameOf (r : Result) : List FrameRecord :=
  match r with
  | .frame f => [f]
  | _ => []

/-- The bytes of one read handed over in order, and the frames they return (R231). -/
def feed : ByteSeq → State → State × List FrameRecord
  | [], s => (s, [])
  | x :: xs, s =>
    let s1 := issue (.rxByte x) s
    let more := feed xs s1
    (more.1, frameOf s1.result ++ more.2)

/-- One read attempt: its bytes, then `SC.ATTEMPT` (R231, R232). -/
def attempt (bytes : ByteSeq) (s : State) : State × List FrameRecord :=
  let got := feed bytes s
  (issue .scAttempt got.1, got.2)

/-- The read attempts of a request, in order (R231). -/
def attempts : List ByteSeq → State → State × List FrameRecord
  | [], s => (s, [])
  | r :: rs, s =>
    let one := attempt r s
    let more := attempts rs one.1
    (more.1, one.2 ++ more.2)

/-- What a host call ends with: the block's state, the bytes written to the line, and its value. -/
structure HostRun (α : Type) where
  state : State
  sent : ByteSeq
  value : α

/-- How a call ends for the host's own caller: a transport failure is surfaced (R252), all else is a value (R234). -/
inductive HostValue (α : Type) where
  | transportFailure
  | value (a : α)
deriving DecidableEq, Repr

/-- Apply a function to the value of a call. -/
def mapValue {α β : Type} (f : α → β) (v : HostValue α) : HostValue β :=
  match v with
  | .transportFailure => .transportFailure
  | .value a => .value (f a)

/-- The request sequence for a transmit form (R231): flush, encode, write, read attempts. No retransmission (R233).
DESIGN CHOICE, log 23: the spec does not say what the sequence does when its `TX.ENCODE` is refused (R131); the refusal
is not looked at, what the transmit stream holds is written, and the read attempts are made. -/
def request (form : Instr) (line : Line) (s : State) : HostRun (HostValue (List FrameRecord)) :=
  let out := takeTx (issue form (issue .rxFlush s))
  if line.writeOk then
    let got := attempts (line.reads.take nAttempts) out.2
    { state := got.1, sent := out.1, value := .value got.2 }
  else { state := out.2, sent := [], value := .transportFailure }

/-- The response: the first frame that is no echo and has the expected path (R231). -/
def response (path : ByteSeq) (fs : List FrameRecord) : Option FrameRecord :=
  fs.find? (fun f => !f.echo && f.cmd == path)

/-- A call that sends a catalog form and decodes the response's payload with one block operation; with no response,
the sentinel (R234). The state is that after the decoding operation. -/
def readCall (k : CatalogCmd) (form : Instr) (decodeOpOf : ByteSeq → Instr) (sentinel : Result) (line : Line)
    (s : State) : HostRun (HostValue Result) :=
  let r := request form line s
  match r.value with
  | .transportFailure => { state := r.state, sent := r.sent, value := .transportFailure }
  | .value fs =>
    match response (catalogPath k) fs with
    | none => { state := r.state, sent := r.sent, value := .value sentinel }
    | some f =>
      let t := issue (decodeOpOf f.payload) r.state
      { state := t, sent := r.sent, value := .value t.result }

/-- `readFrequencyHz()` (R235). -/
def readFrequencyHz (line : Line) (s : State) : HostRun (HostValue Result) :=
  readCall .readFreq .rdfreq (fun p => .decFreq (slice p 0 freqLen)) (.freqHz 0) line s

/-- `readOperatingMode()` (R236). -/
def readOperatingMode (hp : HostParams) (line : Line) (s : State) : HostRun (HostValue Result) :=
  readCall .readMode .rdmode (fun p => .decMode (hp.modeExtract p)) (.mode modeDefault .na) line s

/-- `readSupplyVoltageV()` (R237). -/
def readSupplyVoltageV (hp : HostParams) (line : Line) (s : State) : HostRun (HostValue Result) :=
  readCall .readVolt .rdvolt (fun p => .decVolt (hp.voltExtract p)) (.volts 0 false) line s

/-- Requests one after the other, any response ignored (R238); a transport failure ends the call. -/
def sendForms : List Instr → List Line → State → HostRun (HostValue Unit)
  | [], _, s => { state := s, sent := [], value := .value () }
  | i :: is, lines, s =>
    let line := lines.headD { writeOk := true, reads := [] }
    let r := request i line s
    match r.value with
    | .transportFailure => { state := r.state, sent := r.sent, value := .transportFailure }
    | .value _ =>
      let more := sendForms is lines.tail r.state
      { state := more.state, sent := r.sent ++ more.sent, value := more.value }

/-- `startScopeReadout()`, one line behaviour per request (R238). -/
def startScopeReadout (hp : HostParams) (lines : List Line) (s : State) : HostRun (HostValue Unit) :=
  sendForms hp.startForms lines s

/-- `stopScopeReadout()` (R239). -/
def stopScopeReadout (hp : HostParams) (lines : List Line) (s : State) : HostRun (HostValue Unit) :=
  sendForms hp.stopForms lines s

/-- The loop of `readSpectrum`: read attempts until the session has ended (R240). -/
def spectrumLoop : Nat → List ByteSeq → State → State
  | 0, _, s => s
  | turns + 1, reads, s =>
    let t := (attempt (reads.headD []) s).1
    if inFlight t.sc then spectrumLoop turns reads.tail t else t

/-- The triple of `readSpectrum` with its result code (R194, R240). -/
structure Spectrum where
  amplitudes : ByteSeq
  centerHz : BitVec 34
  spanHz : BitVec 20
  result : ScResult
deriving DecidableEq, Repr

/-- What the host reads from the registers after a session (R194). -/
def spectrumOf (s : State) : Spectrum :=
  { amplitudes := s.amplitudes, centerHz := s.sc.centerHz, spanHz := s.sc.spanHz, result := s.sc.scResult }

/-- Arming for `readSpectrum`: abort a session in flight, request, flush (R240). -/
def spectrumArm (s : State) : State :=
  let s0 := if inFlight s.sc then issue .scAbort s else s
  issue .rxFlush (issue (.scReq (BitVec.ofNat 8 attBudgetDefault)) s0)

/-- `readSpectrum(isFirstRequest)` (R240). -/
def readSpectrum (hp : HostParams) (isFirstRequest : Bool) (line : Line) (s : State) : HostRun (HostValue Spectrum) :=
  let armed := spectrumArm s
  if hp.sendRdscope isFirstRequest then
    let out := takeTx (issue .rdscope armed)
    if line.writeOk then
      let t := spectrumLoop nAttempts line.reads out.2
      { state := t, sent := out.1, value := .value (spectrumOf t) }
    else { state := out.2, sent := [], value := .transportFailure }
  else
    let t := spectrumLoop nAttempts line.reads armed
    { state := t, sent := [], value := .value (spectrumOf t) }

/-- Send one form and wait for nothing (R241). -/
def sendOnly (form : Instr) (line : Line) (s : State) : HostRun (HostValue Unit) :=
  let out := takeTx (issue form s)
  if line.writeOk then { state := out.2, sent := out.1, value := .value () }
  else { state := out.2, sent := [], value := .transportFailure }

/-- `powerOn()`: the catalog frame; the wake sequence is out of scope (R241, R5, C8). -/
def powerOn (line : Line) (s : State) : HostRun (HostValue Unit) := sendOnly .pwron line s

/-- `powerOff()` (R241). -/
def powerOff (line : Line) (s : State) : HostRun (HostValue Unit) := sendOnly .pwroff line s

/-- The two frequencies at the ends of the array, signed (R195). -/
def axisEdges (q : Reassembler) : Int × Int :=
  ((q.centerHz.toNat : Int) - (q.spanHz.toNat : Int), (q.centerHz.toNat : Int) + (q.spanHz.toNat : Int))

end Sys2Proof.Machine
end

