-- ==== Sys2Proof/Machine/Reference.lean ====
section
/-! DEFINITION. The spec's reference functions: the buffer-level `scan` (R163), `scan` without the machine (R164), the
hexadecimal view of a buffer (R71, R110), the BCD encoder of the round-trip law (R198), the bounded implementation of
`ACC` (R201), and runs of operations (R74). -/

namespace Sys2Proof.Machine

/-- The scanner and dispatcher alone, byte by byte: where the scanner stands after the bytes, and the frames (R163). -/
def scanFrom (p : Config.Params) : ByteSeq → Scanner → Scanner × List FrameRecord
  | [], r => (r, [])
  | x :: xs, r =>
    let one := scannerStep p.rxbufCap hostAddrValue x r
    let more := scanFrom p xs one.1
    match one.2 with
    | .accepted A => (more.1, frameEmit p hostAddrValue A :: more.2)
    | _ => more

/-- The parameters with an infinite candidate buffer (R163). -/
def unbounded (p : Config.Params) : Config.Params := { p with rxbufCap := none }

/-- `scan(buffer)` (R163). -/
def scan (p : Config.Params) (buffer : ByteSeq) : List FrameRecord :=
  (scanFrom (unbounded p) buffer Scanner.reset).2

/-- What `scan(buffer)` leaves behind: the partial trailing frame (R163). -/
def scanResidue (p : Config.Params) (buffer : ByteSeq) : Scanner :=
  (scanFrom (unbounded p) buffer Scanner.reset).1

/-- `scan` of a hexadecimal text is that of its bytes (R71, R110). -/
def scanText (p : Config.Params) (text : List Char) : Option (List FrameRecord) := (unhex text).map (scan p)

/-- The least index from `pos` on, below `n`, with a property (R164). -/
def leastFrom (n pos : Nat) (has : Nat → Bool) : Option Nat :=
  (List.range n).find? (fun i => decide (pos ≤ i) && has i)

/-- `FE FE 00` stands at index `i` (R164). -/
def opensAt (b : ByteSeq) (i : Nat) : Bool :=
  b[i]? == some preambleByte && b[i + 1]? == some preambleByte && b[i + 2]? == some hostAddrValue

/-- The loop of R164 from `pos` on; each turn moves `pos`, so the length bounds the turns. -/
def scanLoop (p : Config.Params) (b : ByteSeq) : Nat → Nat → List FrameRecord
  | 0, _ => []
  | turns + 1, pos =>
    match leastFrom b.length pos (opensAt b) with
    | none => []
    | some i =>
      match leastFrom b.length (i + 3) (fun j => b[j]? == some postamble) with
      | none => []
      | some j =>
        (if minCandidate ≤ j - (i + 2) then [frameEmit p hostAddrValue (slice b (i + 2) j)] else []) ++
          scanLoop p b turns (j + 1)

/-- `scan` without the machine (R164). -/
def scanReference (p : Config.Params) (b : ByteSeq) : List FrameRecord := scanLoop p b (b.length + 1) 0

/-- One byte from its two decimal digits. -/
def bcdPair (tens ones : Nat) : Byte := BitVec.ofNat 8 (16 * tens + ones)

/-- `n` bytes of reversed BCD from the number's `100^i` digit on (R198). -/
def bcdBytes (f : Nat) : Nat → Nat → ByteSeq
  | 0, _ => []
  | n + 1, i => bcdPair (f / (10 * 100 ^ i) % 10) (f / 100 ^ i % 10) :: bcdBytes f n (i + 1)

/-- `bcd5(f)` (R198). -/
def bcd5 (f : Nat) : ByteSeq := bcdBytes f freqLen 0

/-- The operations the host issues in order, from a state: each sees what the earlier ones left (R74). -/
def runAll (perform : Instr → State → Host.Outcome State Fault Refusal) :
    List Instr → State → Host.Outcome State Fault Refusal
  | [], s => .next s
  | i :: rest, s =>
    match perform i s with
    | .next t => runAll perform rest t
    | .fault f => .fault f
    | .refused r => .refused r

/-- What happens to the reassembler (R199). -/
inductive ScEvent where
  | request (budget : BitVec 8)
  | frame (sub : Byte) (P : ByteSeq)
  | attempt
  | abort
deriving DecidableEq, Repr

/-- An event on the reassembler (R181 to R193): a request in flight changes no register of it (R182). -/
def scEvent (e : ScEvent) (q : Reassembler) : Reassembler :=
  match e with
  | .request b => if inFlight q then q else scArm b q
  | .frame sub P => scFrame sub P q
  | .attempt => scCount q
  | .abort => scDiscard q

/-- The reassembler with a bounded `ACC` (R201): at most 475 stored bytes and a counter that stays at 476. The stored
bytes stand in the register `ACC` of `regs`. -/
structure BoundedReassembler where
  regs : Reassembler
  count : Nat
deriving DecidableEq, Repr

/-- The counter's last value, "more than 475" (R201). -/
abbrev countTop : Nat := nSamples + 1

/-- Keep the first 475 of the bytes appended (R201). -/
def boundedAppend (P : ByteSeq) (w : BoundedReassembler) : BoundedReassembler :=
  { regs := { w.regs with acc := (w.regs.acc ++ P).take nSamples }, count := min countTop (w.count + P.length) }

/-- The bounded form of a reassembler (R201). -/
def toBounded (q : Reassembler) : BoundedReassembler :=
  { regs := { q with acc := q.acc.take nSamples }, count := min countTop q.acc.length }

/-- Completion of the bounded machine: it tests the counter for 475 (R201). -/
def boundedComplete (w : BoundedReassembler) : BoundedReassembler :=
  if w.count = nSamples then
    { regs := { w.regs with amp := Memory.fill w.regs.acc, ampLen := nSamples, scResult := .ok, acc := [],
                            scState := .complete }
      count := 0 }
  else
    { regs := { w.regs with amp := Memory.empty, ampLen := 0, scResult := .decodeFail, acc := [],
                            scState := .complete }
      count := 0 }

/-- `SC.FRAME` on the bounded machine (R201). -/
def boundedFrame (sub : Byte) (P : ByteSeq) (w : BoundedReassembler) : BoundedReassembler :=
  match w.regs.scState with
  | .idle => w
  | .awaitingHeader =>
    if sub = markFirst then boundedAppend (P.drop hdrLen) { regs := { scHeader P w.regs with acc := [] }, count := 0 }
    else w
  | .accumulating => if sub = markLast then boundedComplete (boundedAppend P w) else boundedAppend P w
  | .complete => w

/-- An event on the bounded machine (R201): a request that arms, an abandonment and an abort empty `ACC`. -/
def boundedEvent (e : ScEvent) (w : BoundedReassembler) : BoundedReassembler :=
  match e with
  | .request b => if inFlight w.regs then w else { regs := scArm b w.regs, count := 0 }
  | .frame sub P => boundedFrame sub P w
  | .attempt =>
    let q := scCount w.regs
    { regs := q, count := if inFlight w.regs && !inFlight q then 0 else w.count }
  | .abort => { regs := scDiscard w.regs, count := 0 }

/-- What the host can read of the reassembler: everything but `ACC` (R64, R194). -/
def scVisible (q : Reassembler) : Reassembler := { q with acc := [] }

end Sys2Proof.Machine
end

