-- ==== Sys2Proof/Safety.lean ====
section
/-! DEFINITION. The invariants of the block (R41), the ranges of its registers, and what no operation may do. -/

namespace Sys2Proof

open Machine

/-- The candidate buffer fits its capacity (R28, R41 b). -/
def fitsCap (cap : Option Nat) (n : Nat) : Prop := ∀ c, cap = some c → n ≤ c

/-- R41 (a) and (b): what `RXBUF` holds in each state of the scanner. -/
structure ScannerInv (cap : Option Nat) (r : Scanner) : Prop where
  emptyOutside : r.rxs ≠ .body → r.rxbuf = []
  nonempty : r.rxs = .body → 1 ≤ r.rxbuf.length
  fits : r.rxs = .body → fitsCap cap r.rxbuf.length
  startsWithHost : r.rxs = .body → r.rxbuf.head? = some 0x00
  noPostamble : r.rxs = .body → 0xFD ∉ r.rxbuf

/-- R41 (c) to (g) and R34: what the reassembler's registers hold in each of its states. -/
structure ReassemblerInv (q : Reassembler) : Prop where
  idle : q.scState = .idle → q.acc = [] ∧ q.centerHz = 0 ∧ q.spanHz = 0 ∧ q.ampLen = 0 ∧
    (q.scResult = .none ∨ q.scResult = .incomplete ∨ q.scResult = .aborted)
  awaiting : q.scState = .awaitingHeader → q.acc = [] ∧ q.centerHz = 0 ∧ q.spanHz = 0 ∧ q.ampLen = 0 ∧
    q.scResult = .none
  accumulating : q.scState = .accumulating → q.ampLen = 0 ∧ q.scResult = .none
  complete : q.scState = .complete → q.acc = [] ∧
    ((q.scResult = .ok ∧ q.ampLen = 475) ∨ (q.scResult = .decodeFail ∧ q.ampLen = 0))
  budget : inFlight q = true → q.attCount.toNat < max q.attBudget.toNat 1
  counted : q.attCount.toNat ≤ max q.attBudget.toNat 1

/-- The space `AMP`: canonical cells, one for each index below `AMP_LEN` and none above (R36, R65). -/
structure AmpInv (q : Reassembler) : Prop where
  canonical : q.amp.wf = true
  listed : q.amp.map (·.1) = List.range q.ampLen
  lengths : q.ampLen = 0 ∨ q.ampLen = 475

/-- The decoded fields stay in the decoders' ranges (R31, R32). -/
structure FieldInv (q : Reassembler) : Prop where
  center : q.centerHz.toNat ≤ 9999999999
  span : q.spanHz.toNat ≤ 999900

/-- The configuration registers agree with the default profile or with a row of the profile table (R26, R122). -/
def ConfigInv (table : List Config.ProfileRow) (c : ConfigRegs) : Prop :=
  (c.profileSel = 0 ∧ c.rigAddr = 0x00 ∧ c.maxBaud = 19200) ∨
  ∃ r ∈ table, c.profileSel = r.sel ∧ c.rigAddr = r.busAddress ∧ c.maxBaud = r.maxBaudRate

/-- The invariant of the block: R41 (a) to (h), with legal parameters (R7). -/
structure BlockInv (s : State) : Prop where
  params : s.params.legal = true
  host : s.cfg.hostAddr.value = 0x00
  config : ConfigInv s.params.profiles s.cfg
  scanner : ScannerInv s.params.rxbufCap s.scan
  reassembler : ReassemblerInv s.sc
  amp : AmpInv s.sc
  fields : FieldInv s.sc

/-- A flag of `e` is set in `e'` too (R37). -/
def errKept (e e' : BitVec 5) : Prop := ∀ b : ErrBit, errTest b e = true → errTest b e' = true

/-- At most one flag is set in `e'` and not in `e` (R261). -/
def errOneMore (e e' : BitVec 5) : Prop :=
  ∀ b c : ErrBit, errTest b e' = true → errTest b e = false → errTest c e' = true → errTest c e = false → b = c

/-- Every index of `AMP` reads as it did. -/
def ampKept (s t : State) : Prop := ∀ i, t.readAmp i = s.readAmp i

/-- Everything outside the scanner, the reassembler and the result is what it was. -/
def outsideKept (s t : State) : Prop :=
  t.cfg = s.cfg ∧ t.err = s.err ∧ t.tx = s.tx ∧ t.port = s.port ∧ t.params = s.params

/-- The ten command paths of the catalog, written out (R94). -/
def knownPaths : List ByteSeq :=
  [[0x03], [0x04], [0x18, 0x01], [0x18, 0x00], [0x15, 0x15], [0x27, 0x10, 0x01], [0x27, 0x10, 0x00],
   [0x27, 0x11, 0x01], [0x27, 0x11, 0x00], [0x27, 0x00]]

/-- The ten catalog transmit forms with their command paths (R134 to R143). -/
def catalogRows : List (Instr × ByteSeq) :=
  [(.rdfreq, [0x03]), (.rdmode, [0x04]), (.pwron, [0x18, 0x01]), (.pwroff, [0x18, 0x00]), (.rdvolt, [0x15, 0x15]),
   (.scopedispOn, [0x27, 0x10, 0x01]), (.scopedispOff, [0x27, 0x10, 0x00]), (.scopeoutOn, [0x27, 0x11, 0x01]),
   (.scopeoutOff, [0x27, 0x11, 0x00]), (.rdscope, [0x27, 0x00])]

/-- The nine received-frame rows of a catalog command other than `27 00`, with their command paths (R111). -/
def plainRxRows (src : Byte) (payload : ByteSeq) : List (Instr × ByteSeq) :=
  [(.rxFreq src payload, [0x03]), (.rxMode src payload, [0x04]), (.rxPwron src payload, [0x18, 0x01]),
   (.rxPwroff src payload, [0x18, 0x00]), (.rxVolt src payload, [0x15, 0x15]),
   (.rxScopedispOn src payload, [0x27, 0x10, 0x01]), (.rxScopedispOff src payload, [0x27, 0x10, 0x00]),
   (.rxScopeoutOn src payload, [0x27, 0x11, 0x01]), (.rxScopeoutOff src payload, [0x27, 0x11, 0x00])]

/-- The three scope-data rows with a sub-marker, each with its marker (R111). -/
def scopeRxRows (src sub : Byte) (rest : ScopeRest) : List (Instr × Byte) :=
  [(.rxScopeFirst src rest, 0x01), (.rxScopeLast src rest, 0x11), (.rxScopeMid src sub rest, sub)]

/-- The record of a received frame of a catalog command without a scope operand (R161). -/
def plainRecord (src : Byte) (cmd payload : ByteSeq) : FrameRecord :=
  { dst := 0x00, src := src, echo := src == 0x00, cmd := cmd, payload := payload, known := true, scope := none }

/-- The record of a received scope-data frame with frame payload `R`, sub-marker `sub` and scope payload `P`
(R96, R160, R161). -/
def scopeRecord (src : Byte) (R : ByteSeq) (sub : Byte) (P : ByteSeq) : FrameRecord :=
  { dst := 0x00, src := src, echo := src == 0x00, cmd := [0x27, 0x00], payload := R, known := true,
    scope := if src = 0x00 then none else some (sub, P) }

/-- The scanner holds nothing: `HUNT` and an empty buffer (R42). -/
def scannerClear (s : State) : Prop := s.scan = { rxs := .hunt, rxbuf := [] }

/-- The operations that may write the scanner: receiving, `RX.FLUSH` and `RESET` (R20, R169). -/
def writesScanner : Instr → Bool
  | .reset | .rxByte _ | .rxFlush => true
  | i => i.format == .rx

/-- The operations that may write the reassembler: receiving, `SC.REQ`, `SC.ATTEMPT`, `SC.ABORT` and `RESET`
(R20, R199). -/
def writesReassembler : Instr → Bool
  | .reset | .rxByte _ | .scReq _ | .scAttempt | .scAbort => true
  | i => i.format == .rx

/-- The operations that may write the configuration registers (R20, R24 to R26). -/
def writesConfig : Instr → Bool
  | .reset | .cfgProfile _ => true
  | _ => false

/-- The operations that may put bytes on the transmit stream, and `RESET`, which leaves it empty (R61, R281). -/
def writesTx : Instr → Bool
  | .reset | .txEncode _ _ _ => true
  | i => i.format == .tx

/-- The operation is an `SC.REQ`. -/
def isRequest : Instr → Bool
  | .scReq _ => true
  | _ => false

end Sys2Proof
end

