-- ==== Sys2Proof/WellFormed.lean ====
section
/-! DEFINITION. Which instructions are well formed: those that some encoding of spec/opcode_table.json names. Every
operand of the format OP is admitted (illegal lengths are the operation's own refusals, R131); a wire-frame row
constrains its bytes (R90 to R97, R103, R111). -/

namespace Sys2Proof

/-- No byte of a frame between the destination and the postamble is `FD` (R103). -/
def noPostamble (bs : ByteSeq) : Bool := !bs.contains Machine.postamble

/-- A generic transmit frame: a body of 1 to 53 bytes (R91), and not the frame of a catalog form, which goes to
`RIG_ADDR` (R94, R111). -/
def genericOk (rd : Reading) (dst : Byte) (body : ByteSeq) : Bool :=
  decide (Machine.cmdMin ≤ body.length) && decide (body.length ≤ Machine.cmdMax + Machine.maxPayload) &&
    !(dst == rd.rigAddr && (Machine.catalog.map Machine.catalogPath).contains body)

/-- A scope-data frame with its sub-marker at `SCOPE_SUB_OFF` and no postamble inside (R96, R103). -/
def scopeOk (rd : Reading) (src sub : Byte) (rest : ScopeRest) : Bool :=
  noPostamble (src :: Machine.scopePayload sub rest) && rest.before.length == rd.subOff

/-- Well-formedness of an instruction. -/
def Instr.wellFormed (rd : Reading) : Instr → Bool
  | .reset | .cfgProfile _ | .txEncode _ _ _ | .rxByte _ | .rxFlush | .scReq _ | .scAttempt | .scAbort => true
  | .decFreq _ | .decSpan _ | .decVolt _ | .decMode _ | .reservedOp _ _ => true
  | .rdfreq | .rdmode | .pwron | .pwroff | .rdvolt => true
  | .scopedispOn | .scopedispOff | .scopeoutOn | .scopeoutOff | .rdscope => true
  | .txframeGeneric dst body => genericOk rd dst body
  | .rxFreq src payload => noPostamble (src :: payload)
  | .rxMode src payload => noPostamble (src :: payload)
  | .rxPwron src payload => noPostamble (src :: payload)
  | .rxPwroff src payload => noPostamble (src :: payload)
  | .rxVolt src payload => noPostamble (src :: payload)
  | .rxScopedispOn src payload => noPostamble (src :: payload)
  | .rxScopedispOff src payload => noPostamble (src :: payload)
  | .rxScopeoutOn src payload => noPostamble (src :: payload)
  | .rxScopeoutOff src payload => noPostamble (src :: payload)
  | .rxScope frame => noPostamble (frame.src :: frame.payload) && decide (frame.payload.length ≤ rd.subOff)
  | .rxScopeFirst src rest => scopeOk rd src Machine.markFirst rest
  | .rxScopeLast src rest => scopeOk rd src Machine.markLast rest
  | .rxScopeMid src sub rest =>
    scopeOk rd src sub rest && sub != Machine.markFirst && sub != Machine.markLast
  | .rxUnknown src cmd payload =>
    noPostamble (src :: cmd :: payload) && (Machine.findPath (cmd :: payload)).isNone

end Sys2Proof
end

