-- ==== Sys2Proof/Certificates/Slice0/Obligations.lean ====
section
/-! DEFINITION. The statements about the CI-V frame codec for the provers. Bytes and numbers are written out where the
spec writes them out, so a statement does not repeat a constant of the model. -/

open Sys2Proof Sys2Proof.Machine

/-! ### The step, decoding and encoding -/

/-- R12, R74: the step performs the oldest presented operation as the decoder reads it with `RIG_ADDR` and the scope
offset as they stand, and takes it off the queue (the queue is the model's choice, log 1). -/
def Obligations.StepRunsDecoded : Prop :=
  ∀ (s : State) (t : Transaction) (rest : List Transaction) (i : Instr),
    s.port = t :: rest → decode s.reading t = .ok i → step s = exec i { s with port := rest }

/-- R13, R265: with nothing presented the block stays as it is. A transaction that no encoding names goes on too: on
the receive side its bytes are received one by one (R62, R105), and elsewhere it is taken off the queue and nothing
else changes (the model's choice, log 17). -/
def Obligations.StepIdleOrUndecodable : Prop :=
  (∀ s : State, s.port = [] → step s = .next s) ∧
  (∀ (s : State) (t : Transaction) (rest : List Transaction) (e : DecodeError),
    s.port = t :: rest → decode s.reading t = .error e → t.lane ≠ .rx → step s = .next { s with port := rest }) ∧
  (∀ (s : State) (t : Transaction) (rest : List Transaction) (e : DecodeError),
    s.port = t :: rest → decode s.reading t = .error e → t.lane = .rx →
    ∃ u v : State, step s = .next u ∧ runAll exec (t.bytes.map .rxByte) { s with port := rest } = .next v ∧
      { u with result := .none } = { v with result := .none })

/-- Words written out from R90, R94, R100 and R101: operation codes, two catalog frames (to `RIG_ADDR` 0x94)
and one of the same form to another address, three received frames, one with the sub-marker at offset 2 (R96). The
operand images are the model's own (log 2). -/
def Obligations.SpecWordsDecode : Prop :=
  decode ⟨0x94, 0⟩ ⟨.op, [0x00]⟩ = .ok .reset ∧
  decode ⟨0x94, 0⟩ ⟨.op, [0x03, 0xFE]⟩ = .ok (.rxByte 0xFE) ∧
  decode ⟨0x94, 0⟩ ⟨.op, [0x05, 0x0F]⟩ = .ok (.scReq 15) ∧
  decode ⟨0x94, 0⟩ ⟨.op, [0x0E]⟩ = .ok (.reservedOp 2 []) ∧
  decode ⟨0x94, 0⟩ ⟨.tx, [0xFE, 0xFE, 0x94, 0x00, 0x03, 0xFD]⟩ = .ok .rdfreq ∧
  decode ⟨0x94, 0⟩ ⟨.tx, [0xFE, 0xFE, 0x94, 0x00, 0x27, 0x11, 0x00, 0xFD]⟩ = .ok .scopeoutOff ∧
  decode ⟨0x94, 0⟩ ⟨.tx, [0xFE, 0xFE, 0x86, 0x00, 0x03, 0xFD]⟩ = .ok (.txframeGeneric 0x86 [0x03]) ∧
  decode ⟨0x94, 0⟩ ⟨.rx, [0xFE, 0xFE, 0x00, 0x94, 0x15, 0x15, 0x01, 0x32, 0xFD]⟩ = .ok (.rxVolt 0x94 [0x01, 0x32]) ∧
  decode ⟨0x94, 0⟩ ⟨.rx, [0xFE, 0xFE, 0x00, 0x94, 0x27, 0x00, 0x11, 0x1E, 0xFD]⟩ = .ok (.rxScopeLast 0x94 ⟨[], [0x1E]⟩) ∧
  decode ⟨0x94, 2⟩ ⟨.rx, [0xFE, 0xFE, 0x00, 0x94, 0x27, 0x00, 0x11, 0x1E, 0x01, 0x45, 0xFD]⟩ =
    .ok (.rxScopeFirst 0x94 ⟨[0x11, 0x1E], [0x45]⟩)

/-- Decoding an encoded well-formed instruction gives it back, for every instruction and every operand, whatever
`RIG_ADDR` and `SCOPE_SUB_OFF` are. -/
def Obligations.DecodeOfEncode : Prop :=
  ∀ (rd : Reading) (i : Instr), i.wellFormed rd = true → decode rd (encode rd i) = .ok i

/-- Encoding a decoded transaction gives it back, byte for byte, whatever `RIG_ADDR` and `SCOPE_SUB_OFF` are. -/
def Obligations.EncodeOfDecode : Prop :=
  ∀ (rd : Reading) (t : Transaction) (i : Instr), decode rd t = .ok i → encode rd i = t

/-- What the decoder reads is well formed. -/
def Obligations.DecodedIsWellFormed : Prop :=
  ∀ (rd : Reading) (t : Transaction) (i : Instr), decode rd t = .ok i → i.wellFormed rd = true

/-! ### The machine as a whole -/

/-- R250, R298: every operation in every state runs to its end and returns; the queue and the parameters (the model's
choice, log 1 and log 7) are not its to change, and `HOST_ADDR` reads as 0 (R23). No step stops, whatever is
presented: for a transaction that decodes this is R298 again, and for one that no encoding names it is the model's
choice that it does not stop the machine (log 17). -/
def Obligations.EveryOperationReturns : Prop :=
  (∀ (i : Instr) (s : State), ∃ t : State, exec i s = .next t ∧ t.port = s.port ∧ t.params = s.params ∧
    t.cfg.hostAddr.value = 0x00) ∧
  (∀ s : State, ∃ t : State, step s = .next t)

/-- R42: the registers after reset. -/
def Obligations.ResetRegisters : Prop :=
  State.reset.cfg.hostAddr.value = 0x00 ∧ State.reset.cfg.rigAddr = 0x00 ∧ State.reset.cfg.maxBaud = 19200 ∧
  State.reset.cfg.profileSel = 0 ∧ State.reset.scan.rxs = .hunt ∧ State.reset.scan.rxbuf = [] ∧
  State.reset.sc.scState = .idle ∧ State.reset.sc.acc = [] ∧ State.reset.sc.centerHz = 0 ∧
  State.reset.sc.spanHz = 0 ∧ State.reset.sc.attBudget = 15 ∧ State.reset.sc.attCount = 0 ∧
  State.reset.sc.scResult = .none ∧ State.reset.sc.ampLen = 0 ∧ (∀ i, State.reset.readAmp i = none) ∧
  State.reset.err = 0 ∧ State.reset.tx = []

/-- The invariant holds after reset, whatever legal parameters the block has (R41, R42). The invariant says more than
R41: R26, R31, R32 and R34, and that no cell of `AMP` is listed while `AMP_LEN` is 0, which is the model's choice
(log 10), as are the parameters as a field beside the registers (log 7). -/
def Obligations.ResetInvariant : Prop :=
  ∀ p : Config.Params, p.legal = true → BlockInv { State.reset with params := p }

/-- Every step keeps the invariant, from every state that has it (R41). The invariant says more than R41: R26, R31, R32 and
R34, and the cells of `AMP`, of which none is listed while `AMP_LEN` is 0 (the model's choice, log 10). The model's
choice too are the default profile under every table (log 21) and what a transaction that no encoding names does
(log 17). -/
def Obligations.StepKeepsInvariant : Prop := ∀ s t : State, BlockInv s → step s = .next t → BlockInv t

/-- R41: in every state reachable from reset by any sequence of operations the invariant holds, for every legal value
of the open parameters. The invariant says more than R41: R26, R31, R32 and R34, and that no cell of `AMP` is listed
while `AMP_LEN` is 0, which is the model's choice (log 10), as is the default profile under every table (log 21). -/
def Obligations.ReachableStatesAreSound : Prop :=
  ∀ (p : Config.Params) (ops : List Instr), p.legal = true →
    ∃ t : State, runAll exec ops { State.reset with params := p } = .next t ∧ BlockInv t

/-- R37, R263: no operation but `RESET` clears a flag; R261: none sets more than one. -/
def Obligations.FlagsAreSticky : Prop :=
  ∀ (i : Instr) (s t : State), i ≠ .reset → exec i s = .next t → errKept s.err t.err ∧ errOneMore s.err t.err

/-- R262: no flag blocks or alters any operation: what an operation does outside `ERR` does not depend on `ERR`. -/
def Obligations.FlagsBlockNothing : Prop :=
  ∀ (i : Instr) (s t : State) (e : BitVec 5), exec i s = .next t →
    ∃ u : State, exec i { s with err := e } = .next u ∧ { u with err := 0 } = { t with err := 0 }

/-! ### RESET, CFG.PROFILE, reserved codes -/

/-- R120, R281: `RESET` in every state: all registers at their reset values, no result. That the stream is emptied and
the queue and the parameters stay is the model's choice (log 9, log 1, log 7). -/
def Obligations.ResetOperation : Prop :=
  ∀ s : State, ∃ t : State, exec .reset s = .next t ∧
    t.cfg.hostAddr.value = 0x00 ∧ t.cfg.rigAddr = 0x00 ∧ t.cfg.maxBaud = 19200 ∧ t.cfg.profileSel = 0 ∧
    t.scan.rxs = .hunt ∧ t.scan.rxbuf = [] ∧
    t.sc.scState = .idle ∧ t.sc.acc = [] ∧ t.sc.centerHz = 0 ∧ t.sc.spanHz = 0 ∧ t.sc.attBudget = 15 ∧
    t.sc.attCount = 0 ∧ t.sc.scResult = .none ∧ t.sc.ampLen = 0 ∧ (∀ i, t.readAmp i = none) ∧
    t.err = 0 ∧ t.tx = [] ∧ t.result = .none ∧ t.port = s.port ∧ t.params = s.params

/-- R121, R122, R124: a name of the profile table, whatever table the block has, and the three names of the default
table, in ASCII; everything else unchanged. The model's choice is that the first of two rows with one name
counts, that a row with the empty name is found (log 21), and that a name may be any bytes, ASCII or not (log 16). -/
def Obligations.ProfileKnownName : Prop :=
  (∀ (s : State) (above below : List Config.ProfileRow) (row : Config.ProfileRow),
    s.params.profiles = above ++ row :: below → (∀ r ∈ above, r.modelName ≠ row.modelName) →
    exec (.cfgProfile row.modelName) s =
      .next { s with cfg := { s.cfg with rigAddr := row.busAddress, maxBaud := row.maxBaudRate, profileSel := row.sel }
                     result := .profile row.busAddress row.maxBaudRate true }) ∧
  (∀ s : State, s.params.profiles = defaultParams.profiles →
    exec (.cfgProfile [0x49, 0x43, 0x2D, 0x37, 0x33, 0x30, 0x30]) s =
      .next { s with cfg := { s.cfg with rigAddr := 0x94, maxBaud := 115200, profileSel := 1 }
                     result := .profile 0x94 115200 true } ∧
    exec (.cfgProfile [0x49, 0x44, 0x2D, 0x35, 0x31]) s =
      .next { s with cfg := { s.cfg with rigAddr := 0x86, maxBaud := 19200, profileSel := 2 }
                     result := .profile 0x86 19200 true } ∧
    exec (.cfgProfile [0x49, 0x43, 0x2D, 0x52, 0x36]) s =
      .next { s with cfg := { s.cfg with rigAddr := 0x7E, maxBaud := 19200, profileSel := 3 }
                     result := .profile 0x7E 19200 true })

/-- R121, R123, R254: a name in no row of the block's profile table loads the default profile and sets
`CFG_UNKNOWN`. The model's choice is that the default profile is 0x00, 19200, 0 under every table (log 21), and that a
name may be any bytes, so that one that is not ASCII is unknown too (log 16). -/
def Obligations.ProfileUnknownName : Prop :=
  ∀ (s : State) (name : ByteSeq), (∀ r ∈ s.params.profiles, r.modelName ≠ name) →
    exec (.cfgProfile name) s =
      .next { s with cfg := { s.cfg with rigAddr := 0x00, maxBaud := 19200, profileSel := 0 }
                     err := s.err ||| 0b00001
                     result := .profile 0x00 19200 false }

/-- R20, R24 to R26: only `CFG.PROFILE` and `RESET` write the configuration registers. -/
def Obligations.ConfigWrittenOnlyByProfile : Prop :=
  ∀ (i : Instr) (s t : State), writesConfig i = false → exec i s = .next t → t.cfg = s.cfg

/-- R101, R259: the four reserved codes, whatever operands accompany them; the operand images are the model's choice
(log 2). -/
def Obligations.ReservedCodeRefused : Prop :=
  ∀ (s : State) (rd : Reading) (code : BitVec 2) (operands : ByteSeq),
    exec (.reservedOp code operands) s = .next { s with err := s.err ||| 0b10000, result := .refused } ∧
    decode rd { lane := .op, bytes := BitVec.ofNat 8 (12 + code.toNat) :: operands } = .ok (.reservedOp code operands)

/-! ### Transmit -/

/-- R130, R131: `TX.ENCODE` on every length of command path and payload. -/
def Obligations.TxEncodeFrame : Prop :=
  ∀ (s : State) (dst : Byte) (cmd payload : ByteSeq),
    (1 ≤ cmd.length ∧ cmd.length ≤ 3 ∧ payload.length ≤ 50 →
      exec (.txEncode dst cmd payload) s =
        .next { s with tx := s.tx ++ ([0xFE, 0xFE, dst, 0x00] ++ cmd ++ payload ++ [0xFD])
                       result := .txBytes ([0xFE, 0xFE, dst, 0x00] ++ cmd ++ payload ++ [0xFD]) } ∧
      ([0xFE, 0xFE, dst, 0x00] ++ cmd ++ payload ++ [0xFD]).length = 5 + cmd.length + payload.length) ∧
    (cmd.length = 0 ∨ 3 < cmd.length ∨ 50 < payload.length →
      exec (.txEncode dst cmd payload) s = .next { s with err := s.err ||| 0b00010, result := .refused })

/-- R134 to R143: each catalog form emits its frame to `RIG_ADDR` and changes no register. -/
def Obligations.CatalogFormsEmit : Prop :=
  ∀ (s : State) (form : Instr) (path : ByteSeq), (form, path) ∈ catalogRows →
    exec form s =
      .next { s with tx := s.tx ++ ([0xFE, 0xFE, s.cfg.rigAddr, 0x00] ++ path ++ [0xFD])
                     result := .txBytes ([0xFE, 0xFE, s.cfg.rigAddr, 0x00] ++ path ++ [0xFD]) }

/-- R91, R130, R131: the generic transmit row puts its frame on the stream if `TX.ENCODE` can emit it. -/
def Obligations.GenericFrameEmits : Prop :=
  ∀ (s : State) (dst : Byte) (body : ByteSeq),
    (1 ≤ body.length ∧ body.length ≤ 53 →
      exec (.txframeGeneric dst body) s =
        .next { s with tx := s.tx ++ ([0xFE, 0xFE, dst, 0x00] ++ body ++ [0xFD])
                       result := .txBytes ([0xFE, 0xFE, dst, 0x00] ++ body ++ [0xFD]) }) ∧
    (body.length = 0 ∨ 53 < body.length →
      exec (.txframeGeneric dst body) s = .next { s with err := s.err ||| 0b00010, result := .refused })

/-- R91: the frame `TX.ENCODE` emits does not depend on where its body is cut (log 5). -/
def Obligations.GenericIsTxEncode : Prop :=
  ∀ (s : State) (dst : Byte) (cmd payload : ByteSeq),
    1 ≤ cmd.length → cmd.length ≤ 3 → payload.length ≤ 50 →
    exec (.txframeGeneric dst (cmd ++ payload)) s = exec (.txEncode dst cmd payload) s

/-- R61, R233: no operation but a transmit form puts anything on the transmit stream, and a transmit form only adds at
its end. -/
def Obligations.TransmitStreamGrows : Prop :=
  (∀ (i : Instr) (s t : State), writesTx i = false → exec i s = .next t → t.tx = s.tx) ∧
  (∀ (i : Instr) (s t : State), i ≠ .reset → exec i s = .next t → s.tx <+: t.tx)

/-! ### Receive -/

/-- R151 to R156: one `RX.BYTE` in each state of the scanner, but for a postamble that ends a candidate of three
bytes or more (see `AcceptedCandidate`). Nothing but what is named changes. In states no run reaches, where `RXBUF`
holds something outside `BODY`, writing the empty sequence is the model's choice (log 12). -/
def Obligations.ScannerTable : Prop :=
  ∀ (s : State) (x : Byte),
    (s.scan.rxs = .hunt →
      exec (.rxByte x) s =
        .next { s with scan := { rxs := if x = 0xFE then .pre1 else .hunt, rxbuf := [] }, result := .none }) ∧
    (s.scan.rxs = .pre1 →
      exec (.rxByte x) s =
        .next { s with scan := { rxs := if x = 0xFE then .dst else .hunt, rxbuf := [] }, result := .none }) ∧
    (s.scan.rxs = .dst → x = 0x00 →
      exec (.rxByte x) s = .next { s with scan := { rxs := .body, rxbuf := [0x00] }, result := .none }) ∧
    (s.scan.rxs = .dst → x ≠ 0x00 →
      exec (.rxByte x) s =
        .next { s with scan := { rxs := if x = 0xFE then .dst else .hunt, rxbuf := [] }, result := .none }) ∧
    (s.scan.rxs = .body → x ≠ 0xFD → (∀ c, s.params.rxbufCap = some c → s.scan.rxbuf.length < c) →
      exec (.rxByte x) s =
        .next { s with scan := { rxs := .body, rxbuf := s.scan.rxbuf ++ [x] }, result := .none }) ∧
    (s.scan.rxs = .body → x ≠ 0xFD → s.params.rxbufCap = some s.scan.rxbuf.length →
      exec (.rxByte x) s =
        .next { s with scan := { rxs := if x = 0xFE then .pre1 else .hunt, rxbuf := [] }
                       err := s.err ||| 0b00100
                       result := .none }) ∧
    (s.scan.rxs = .body → x = 0xFD → s.scan.rxbuf.length < 3 →
      exec (.rxByte x) s = .next { s with scan := { rxs := .hunt, rxbuf := [] }, result := .none })

/-- R155, R157 to R159, R95: the postamble ends a candidate of three bytes or more, and the frame is returned with the
command path the catalog gives it. -/
def Obligations.AcceptedCandidate : Prop :=
  ∀ (s : State) (dst src : Byte) (Y : ByteSeq), s.scan = { rxs := .body, rxbuf := dst :: src :: Y } → Y ≠ [] →
    ∃ (t : State) (r : FrameRecord), exec (.rxByte 0xFD) s = .next t ∧ t.result = .frame r ∧
      r.dst = dst ∧ r.src = src ∧ r.echo = (src == 0x00) ∧
      (∀ K ∈ knownPaths, K <+: Y → r.cmd = K ∧ r.payload = Y.drop K.length ∧ r.known = true) ∧
      ((∀ K ∈ knownPaths, ¬ K <+: Y) → r.cmd = Y.take 1 ∧ r.payload = Y.drop 1 ∧ r.known = false) ∧
      t.scan = { rxs := .hunt, rxbuf := [] } ∧ outsideKept s t

/-- R160: which accepted frames reach the reassembler, and with what. -/
def Obligations.ScopeDispatch : Prop :=
  (∀ (s : State) (dst src : Byte) (R : ByteSeq),
    s.scan = { rxs := .body, rxbuf := dst :: src :: 0x27 :: 0x00 :: R } →
    ∃ (t : State) (r : FrameRecord), exec (.rxByte 0xFD) s = .next t ∧ t.result = .frame r ∧
      (src ≠ 0x00 → ∀ sub, R[s.params.scopeSubOff]? = some sub →
        r.scope = some (sub, R.drop s.params.scopeDataOff) ∧
        t.sc = scFrame sub (R.drop s.params.scopeDataOff) s.sc) ∧
      (src = 0x00 ∨ R.length ≤ s.params.scopeSubOff → r.scope = none ∧ t.sc = s.sc)) ∧
  (∀ (s : State) (dst src : Byte) (Y : ByteSeq),
    s.scan = { rxs := .body, rxbuf := dst :: src :: Y } → Y ≠ [] → ¬ [0x27, 0x00] <+: Y →
    ∃ (t : State) (r : FrameRecord), exec (.rxByte 0xFD) s = .next t ∧ t.result = .frame r ∧
      r.scope = none ∧ t.sc = s.sc)

/-- R162: `RX.FLUSH`. -/
def Obligations.RxFlushClears : Prop :=
  ∀ s : State, exec .rxFlush s = .next { s with scan := { rxs := .hunt, rxbuf := [] }, result := .none }

/-- R169: only receiving, `RX.FLUSH` and `RESET` change `RXS` or `RXBUF`. -/
def Obligations.ScannerWrittenOnlyByReceive : Prop :=
  ∀ (i : Instr) (s t : State), writesScanner i = false → exec i s = .next t → t.scan = s.scan

/-- R111: a received-frame row is the `RX.BYTE` operations of its frame's bytes, in every state (log 3). -/
def Obligations.ReceivedRowIsItsBytes : Prop :=
  ∀ (i : Instr) (rd : Reading) (s : State), (encode rd i).lane = .rx →
    ∃ t u : State, exec i s = .next t ∧ runAll exec ((encode rd i).bytes.map .rxByte) s = .next u ∧
      { t with result := .none } = { u with result := .none }

/-- R150, R161: receiving a whole frame, in one step (the model's choice, log 3), of one of the nine catalog commands
other than `27 00`: one frame, nothing else changed. -/
def Obligations.PlainFrameReceived : Prop :=
  ∀ (s : State) (src : Byte) (payload : ByteSeq) (row : Instr) (path : ByteSeq),
    (row, path) ∈ plainRxRows src payload → scannerClear s → 0xFD ∉ src :: payload →
    fitsCap s.params.rxbufCap (2 + path.length + payload.length) →
    exec row s = .next { s with result := .frames [plainRecord src path payload] }

/-- R95, R159: a whole frame (in one step, log 3) whose body starts with no catalog path is delivered with
`known = 0`. -/
def Obligations.UnknownFrameReceived : Prop :=
  ∀ (s : State) (src cmd : Byte) (payload : ByteSeq),
    scannerClear s → 0xFD ∉ src :: cmd :: payload → (∀ K ∈ knownPaths, ¬ K <+: cmd :: payload) →
    fitsCap s.params.rxbufCap (3 + payload.length) →
    exec (.rxUnknown src cmd payload) s =
      .next { s with result := .frames [{ dst := 0x00, src := src, echo := src == 0x00, cmd := [cmd],
                                          payload := payload, known := false, scope := none }] }

/-- R163: a buffer may be cut anywhere: the frames of the first part, then those the second part yields from what the
first left behind. -/
def Obligations.ScanMayBeCutAnywhere : Prop :=
  ∀ (p : Config.Params) (b c : ByteSeq),
    scan p (b ++ c) = scan p b ++ (scanFrom (unbounded p) c (scanResidue p b)).2 ∧
    scanResidue p (b ++ c) = (scanFrom (unbounded p) c (scanResidue p b)).1

/-- R163: `scan` is what `RX.BYTE` of each byte returns: from any state, for any capacity. -/
def Obligations.ReceivingIsScanning : Prop :=
  ∀ (s : State) (b : ByteSeq),
    (receiveBytes b s).2 = (scanFrom s.params b s.scan).2 ∧
    (receiveBytes b s).1.scan = (scanFrom s.params b s.scan).1 ∧
    ∃ r : Result, runAll exec (b.map .rxByte) s = .next { (receiveBytes b s).1 with result := r }

/-- R164: `scan` equals its description without the machine, on every buffer. -/
def Obligations.ScanEqualsReference : Prop := ∀ (p : Config.Params) (b : ByteSeq), scan p b = scanReference p b

/-- R165: concatenated valid frames give exactly those frames in arrival order; a truncated trailing frame, cut
anywhere before its last byte, adds none and is what stays behind. -/
def Obligations.ConcatenatedFrames : Prop :=
  ∀ (p : Config.Params) (fs : List (Byte × ByteSeq)), (∀ f ∈ fs, f.2 ≠ [] ∧ 0xFD ∉ f.1 :: f.2) →
    let wire := fun f : Byte × ByteSeq => [0xFE, 0xFE, 0x00, f.1] ++ f.2 ++ [0xFD]
    (scan p (fs.flatMap wire)).map (fun r => (r.src, r.cmd ++ r.payload)) = fs ∧
    ∀ (g : Byte × ByteSeq) (u v : ByteSeq), g.2 ≠ [] → 0xFD ∉ g.1 :: g.2 → u ++ v = wire g → v ≠ [] →
      scan p (fs.flatMap wire ++ u) = scan p (fs.flatMap wire) ∧
      scanResidue p (fs.flatMap wire ++ u) = scanResidue p u ∧ scan p u = []

/-- R92, R103, R168: every frame scanned out of any buffer is addressed to the host, has a command path of 1 to 3
bytes and carries no `FD`. -/
def Obligations.ScannedFramesAreForHost : Prop :=
  ∀ (p : Config.Params) (b : ByteSeq) (f : FrameRecord), f ∈ scan p b →
    f.dst = 0x00 ∧ 1 ≤ f.cmd.length ∧ f.cmd.length ≤ 3 ∧ 0xFD ∉ f.cmd ++ f.payload

/-- R125, R144, R158: a catalog form echoed back: under the default profile it returns as one echo that leaves the
reassembler alone; under any other address nothing returns (the address `FE`, which keeps the scanner waiting for a
destination by R153, apart). -/
def Obligations.OwnFrameEchoed : Prop :=
  ∀ (s : State) (form : Instr) (path : ByteSeq), (form, path) ∈ catalogRows → scannerClear s →
    s.params.legal = true →
    ∃ (t : State) (F : ByteSeq), exec form s = .next t ∧ t.result = .txBytes F ∧
      (s.cfg.rigAddr = 0x00 →
        (receiveBytes F t).2 = [plainRecord 0x00 path []] ∧ (receiveBytes F t).1.sc = s.sc) ∧
      (s.cfg.rigAddr ≠ 0x00 → s.cfg.rigAddr ≠ 0xFE →
        (receiveBytes F t).2 = [] ∧ (receiveBytes F t).1 = t)

/-! ### The scope reassembler -/

/-- R181: `SC.REQ` outside a session arms one with the budget given. -/
def Obligations.ScReqArms : Prop :=
  ∀ (s : State) (budget : BitVec 8), s.sc.scState = .idle ∨ s.sc.scState = .complete →
    ∃ t : State, exec (.scReq budget) s = .next t ∧ t.result = .ok ∧
      t.sc.scState = .awaitingHeader ∧ t.sc.acc = [] ∧ t.sc.centerHz = 0 ∧ t.sc.spanHz = 0 ∧
      t.sc.attBudget = budget ∧ t.sc.attCount = 0 ∧ t.sc.scResult = .none ∧ t.sc.ampLen = 0 ∧
      (∀ i, t.readAmp i = none) ∧ t.scan = s.scan ∧ outsideKept s t

/-- R182, R258: `SC.REQ` during a session is refused and the session goes on. -/
def Obligations.ScReqBusyRefused : Prop :=
  ∀ (s : State) (budget : BitVec 8), s.sc.scState = .awaitingHeader ∨ s.sc.scState = .accumulating →
    exec (.scReq budget) s = .next { s with err := s.err ||| 0b01000, result := .refused }

/-- R191, R192: `SC.ATTEMPT` counts, abandons at the budget, and does nothing outside a session. A count of 255, which
no run reaches in a session, wraps as it is abandoned: the model's choice (log 11). -/
def Obligations.ScAttemptCounts : Prop :=
  ∀ s : State,
    (s.sc.scState = .idle ∨ s.sc.scState = .complete →
      exec .scAttempt s = .next { s with result := .session s.sc.scResult }) ∧
    (s.sc.scState = .awaitingHeader ∨ s.sc.scState = .accumulating →
      s.sc.attCount.toNat + 1 < s.sc.attBudget.toNat →
      exec .scAttempt s =
        .next { s with sc := { s.sc with attCount := s.sc.attCount + 1 }, result := .session s.sc.scResult } ∧
      (s.sc.attCount + 1).toNat = s.sc.attCount.toNat + 1) ∧
    (s.sc.scState = .awaitingHeader ∨ s.sc.scState = .accumulating →
      s.sc.attBudget.toNat ≤ s.sc.attCount.toNat + 1 →
      ∃ t : State, exec .scAttempt s = .next t ∧ t.result = .session .incomplete ∧
        t.sc.scState = .idle ∧ t.sc.scResult = .incomplete ∧ t.sc.acc = [] ∧ t.sc.centerHz = 0 ∧
        t.sc.spanHz = 0 ∧ t.sc.ampLen = 0 ∧ (∀ i, t.readAmp i = none) ∧ t.sc.attBudget = s.sc.attBudget ∧
        t.sc.attCount = s.sc.attCount + 1 ∧ t.scan = s.scan ∧ outsideKept s t)

/-- R193: `SC.ABORT` in every state. -/
def Obligations.ScAbortDiscards : Prop :=
  ∀ s : State, ∃ t : State, exec .scAbort s = .next t ∧ t.result = .none ∧
    t.sc.scState = .idle ∧ t.sc.acc = [] ∧ t.sc.centerHz = 0 ∧ t.sc.spanHz = 0 ∧ t.sc.ampLen = 0 ∧
    (∀ i, t.readAmp i = none) ∧ t.sc.attBudget = s.sc.attBudget ∧ t.sc.attCount = s.sc.attCount ∧
    (s.sc.scState = .awaitingHeader ∨ s.sc.scState = .accumulating → t.sc.scResult = .aborted) ∧
    (s.sc.scState = .idle ∨ s.sc.scState = .complete → t.sc.scResult = .none) ∧
    t.scan = s.scan ∧ outsideKept s t

/-- R183 to R189: the event `SC.FRAME` in each state, for each marker. Nothing but what is named changes; the cells
of `AMP` while `AMP_LEN` is 0 are left open (R299). -/
def Obligations.ScFrameTable : Prop :=
  ∀ (sub : Byte) (P : ByteSeq) (q : Reassembler),
    (q.scState = .idle ∨ q.scState = .complete → scFrame sub P q = q) ∧
    (q.scState = .awaitingHeader → sub ≠ 0x01 → scFrame sub P q = q) ∧
    (q.scState = .awaitingHeader → sub = 0x01 →
      scFrame sub P q = { q with scState := .accumulating
                                 centerHz := decodeFrequency ((P.take 6).drop 1)
                                 spanHz := decodeSpan ((P.take 12).drop 6)
                                 acc := P.drop 12 }) ∧
    (q.scState = .accumulating → sub ≠ 0x11 → scFrame sub P q = { q with acc := q.acc ++ P }) ∧
    (q.scState = .accumulating → sub = 0x11 → (q.acc ++ P).length = 475 →
      ∃ m : Memory, (∀ i, m.read i = (q.acc ++ P)[i]?) ∧
        scFrame sub P q = { q with scState := .complete, acc := [], scResult := .ok, ampLen := 475, amp := m }) ∧
    (q.scState = .accumulating → sub = 0x11 → (q.acc ++ P).length ≠ 475 →
      ∃ m : Memory,
        scFrame sub P q = { q with scState := .complete, acc := [], scResult := .decodeFail, ampLen := 0, amp := m })

/-- R183, R185, R190, R160: the scope-data frames the reassembler ignores: those without a sub-marker, echoes, all in
`Idle` and `Complete`, and all but a header in `AwaitingHeader`. The frame is returned all the same. -/
def Obligations.ScopeFrameIgnored : Prop :=
  (∀ (s : State) (frame : ShortScope), scannerClear s → frame.payload.length ≤ s.params.scopeSubOff →
    0xFD ∉ frame.src :: frame.payload → fitsCap s.params.rxbufCap (4 + frame.payload.length) →
    exec (.rxScope frame) s =
      .next { s with result := .frames [plainRecord frame.src [0x27, 0x00] frame.payload] }) ∧
  (∀ (s : State) (src sub : Byte) (rest : ScopeRest) (row : Instr) (mark : Byte) (R : ByteSeq),
    (row, mark) ∈ scopeRxRows src sub rest → scannerClear s → rest.before.length = s.params.scopeSubOff →
    R = rest.before ++ mark :: rest.after → 0xFD ∉ src :: R → fitsCap s.params.rxbufCap (4 + R.length) →
    (src = 0x00 ∨ s.sc.scState = .idle ∨ s.sc.scState = .complete ∨
      (s.sc.scState = .awaitingHeader ∧ mark ≠ 0x01)) →
    exec row s = .next { s with result := .frames [scopeRecord src R mark (R.drop s.params.scopeDataOff)] })

/-- R184, R96: the header frame decodes centre and span and starts the accumulation, for all scope offsets. -/
def Obligations.HeaderFrameStarts : Prop :=
  ∀ (s : State) (src : Byte) (rest : ScopeRest) (R P : ByteSeq),
    scannerClear s → rest.before.length = s.params.scopeSubOff → R = rest.before ++ 0x01 :: rest.after →
    P = R.drop s.params.scopeDataOff → src ≠ 0x00 → 0xFD ∉ src :: R → fitsCap s.params.rxbufCap (4 + R.length) →
    s.sc.scState = .awaitingHeader →
    exec (.rxScopeFirst src rest) s =
      .next { s with sc := { s.sc with scState := .accumulating
                                       centerHz := decodeFrequency ((P.take 6).drop 1)
                                       spanHz := decodeSpan ((P.take 12).drop 6)
                                       acc := P.drop 12 }
                     result := .frames [scopeRecord src R 0x01 P] }

/-- R186, R96: in `Accumulating` every frame but the terminal one, a second header included, is appended whole, for
all scope offsets. -/
def Obligations.IntermediateFrameAppends : Prop :=
  ∀ (s : State) (src sub : Byte) (rest : ScopeRest) (row : Instr) (mark : Byte) (R P : ByteSeq),
    (row, mark) ∈ scopeRxRows src sub rest → mark ≠ 0x11 → scannerClear s →
    rest.before.length = s.params.scopeSubOff → R = rest.before ++ mark :: rest.after →
    P = R.drop s.params.scopeDataOff → src ≠ 0x00 → 0xFD ∉ src :: R → fitsCap s.params.rxbufCap (4 + R.length) →
    s.sc.scState = .accumulating →
    exec row s = .next { s with sc := { s.sc with acc := s.sc.acc ++ P }
                                result := .frames [scopeRecord src R mark P] }

/-- R187 to R189: the terminal frame completes the session: 475 bytes exactly become the array, in order, and any
other total is a decode failure with an empty array. For all scope offsets (R96). -/
def Obligations.TerminalFrameCompletes : Prop :=
  ∀ (s : State) (src : Byte) (rest : ScopeRest) (R P : ByteSeq),
    scannerClear s → rest.before.length = s.params.scopeSubOff → R = rest.before ++ 0x11 :: rest.after →
    P = R.drop s.params.scopeDataOff → src ≠ 0x00 → 0xFD ∉ src :: R → fitsCap s.params.rxbufCap (4 + R.length) →
    s.sc.scState = .accumulating →
    ∃ t : State, exec (.rxScopeLast src rest) s = .next t ∧ t.result = .frames [scopeRecord src R 0x11 P] ∧
      t.sc.scState = .complete ∧ t.sc.acc = [] ∧ t.sc.centerHz = s.sc.centerHz ∧ t.sc.spanHz = s.sc.spanHz ∧
      t.sc.attBudget = s.sc.attBudget ∧ t.sc.attCount = s.sc.attCount ∧
      ((s.sc.acc ++ P).length = 475 → t.sc.scResult = .ok ∧ t.sc.ampLen = 475 ∧
        ∀ i, t.readAmp i = (s.sc.acc ++ P)[i]?) ∧
      ((s.sc.acc ++ P).length ≠ 475 → t.sc.scResult = .decodeFail ∧ t.sc.ampLen = 0 ∧ ∀ i, t.readAmp i = none) ∧
      t.scan = s.scan ∧ outsideKept s t

/-- R199: no other operation, and no `RX.BYTE` that emits no scope frame, changes a register of the reassembler or a
byte of `AMP`. -/
def Obligations.ReassemblerWrittenOnlyByScope : Prop :=
  (∀ (i : Instr) (s t : State), writesReassembler i = false → exec i s = .next t → t.sc = s.sc ∧ ampKept s t) ∧
  (∀ (x : Byte) (s t : State), exec (.rxByte x) s = .next t →
    (∀ r : FrameRecord, t.result = .frame r → r.scope = none) → t.sc = s.sc ∧ ampKept s t)

/-- R192, R34: whatever else the host does short of a new `SC.REQ`, as many `SC.ATTEMPT` operations as the budget (at
least one) leave no session in flight. -/
def Obligations.BudgetEndsSession : Prop :=
  ∀ (s : State) (ops : List Instr), (∀ i ∈ ops, isRequest i = false) →
    max s.sc.attBudget.toNat 1 ≤ ops.count .scAttempt →
    ∃ t : State, runAll exec ops s = .next t ∧ inFlight t.sc = false

/-- R201: the bounded implementation of `ACC` agrees with the unbounded one on every sequence of events, from every
state: all the host can read, and the part of `ACC` it keeps. -/
def Obligations.BoundedAccAgrees : Prop :=
  ∀ (es : List ScEvent) (q : Reassembler),
    let w := es.foldl (fun w e => boundedEvent e w) (toBounded q)
    let r := es.foldl (fun r e => scEvent e r) q
    scVisible w.regs = scVisible r ∧ w.regs.acc = r.acc.take 475 ∧ w.count = min 476 r.acc.length

/-- R65, R36: below `AMP_LEN` every index of `AMP` reads as a byte, from there on none does (log 10); the array is of
length 475 exactly when the result is `OK`, else empty. -/
def Obligations.AmpReadableBelowLength : Prop :=
  ∀ s : State, BlockInv s →
    (∀ i, i < s.sc.ampLen → ∃ b : Byte, s.readAmp i = some b) ∧ (∀ i, s.sc.ampLen ≤ i → s.readAmp i = none) ∧
    s.amplitudes.length = s.sc.ampLen ∧ (s.sc.ampLen = 475 ↔ s.sc.scResult = .ok) ∧
    (s.sc.ampLen = 0 ↔ s.sc.scResult ≠ .ok)

/-! ### The decoders -/

/-- R196, R102: `DEC.FREQ` on every operand; nothing but the result changes. -/
def Obligations.FrequencyDecoded : Prop :=
  (∀ (s : State) (B : ByteSeq), B.length ≠ 5 → exec (.decFreq B) s = .next { s with result := .freqHz 0 }) ∧
  (∀ (s : State) (b0 b1 b2 b3 b4 : Byte),
    (∃ b ∈ [b0, b1, b2, b3, b4], 9 < b.toNat / 16 ∨ 9 < b.toNat % 16) →
    exec (.decFreq [b0, b1, b2, b3, b4]) s = .next { s with result := .freqHz 0 }) ∧
  (∀ (s : State) (b0 b1 b2 b3 b4 : Byte),
    (∀ b ∈ [b0, b1, b2, b3, b4], b.toNat / 16 ≤ 9 ∧ b.toNat % 16 ≤ 9) →
    ∃ v : BitVec 34, exec (.decFreq [b0, b1, b2, b3, b4]) s = .next { s with result := .freqHz v } ∧
      v.toNat = (10 * (b0.toNat / 16) + b0.toNat % 16) + (10 * (b1.toNat / 16) + b1.toNat % 16) * 100 +
        (10 * (b2.toNat / 16) + b2.toNat % 16) * 10000 + (10 * (b3.toNat / 16) + b3.toNat % 16) * 1000000 +
        (10 * (b4.toNat / 16) + b4.toNat % 16) * 100000000)

/-- R198: the round-trip law of the frequency decoder. -/
def Obligations.FrequencyRoundTrip : Prop :=
  ∀ (s : State) (f : Nat), f ≤ 9999999999 →
    ∃ v : BitVec 34, exec (.decFreq (bcd5 f)) s = .next { s with result := .freqHz v } ∧ v.toNat = f

/-- R197, R104: `DEC.SPAN` on every operand: bytes 0, 3, 4 and 5 are not read. -/
def Obligations.SpanDecoded : Prop :=
  (∀ (s : State) (S : ByteSeq), S.length ≠ 6 → exec (.decSpan S) s = .next { s with result := .spanHz 0 }) ∧
  (∀ (s : State) (b0 b1 b2 b3 b4 b5 : Byte),
    (9 < b1.toNat / 16 ∨ 9 < b1.toNat % 16 ∨ 9 < b2.toNat / 16 ∨ 9 < b2.toNat % 16) →
    exec (.decSpan [b0, b1, b2, b3, b4, b5]) s = .next { s with result := .spanHz 0 }) ∧
  (∀ (s : State) (b0 b1 b2 b3 b4 b5 : Byte),
    b1.toNat / 16 ≤ 9 → b1.toNat % 16 ≤ 9 → b2.toNat / 16 ≤ 9 → b2.toNat % 16 ≤ 9 →
    ∃ v : BitVec 20, exec (.decSpan [b0, b1, b2, b3, b4, b5]) s = .next { s with result := .spanHz v } ∧
      v.toNat = (b1.toNat / 16) * 1000 + (b1.toNat % 16) * 100 + (b2.toNat / 16) * 100000 +
        (b2.toNat % 16) * 10000)

/-- R197: every span is a multiple of 100 Hz, at most 999,900. -/
def Obligations.SpanIsMultipleOf100 : Prop :=
  ∀ (s t : State) (S : ByteSeq) (v : BitVec 20), exec (.decSpan S) s = .next t → t.result = .spanHz v →
    v.toNat ≤ 999900 ∧ v.toNat % 100 = 0

/-- R220, R221: `DEC.VOLT` on every signed operand, exact; `(0, ok)` arises from 0 alone. -/
def Obligations.VoltageDecoded : Prop :=
  (∀ (s : State) (raw : BitVec 16),
    (raw.toInt < 0 ∨ 255 < raw.toInt → exec (.decVolt raw) s = .next { s with result := .volts 0 false }) ∧
    (0 ≤ raw.toInt → raw.toInt < 14 →
      exec (.decVolt raw) s = .next { s with result := .volts (10 * (raw.toInt : Rat) / 13) true }) ∧
    (14 ≤ raw.toInt → raw.toInt ≤ 255 →
      exec (.decVolt raw) s = .next { s with result := .volts ((raw.toInt : Rat) / 38 + 10) true })) ∧
  (∀ (s t : State) (raw : BitVec 16), exec (.decVolt raw) s = .next t → t.result = .volts 0 true → raw = 0)

/-- R223, R224: `DEC.MODE` on every code, with the names as text. -/
def Obligations.ModeDecoded : Prop :=
  ∀ (s : State) (code : BitVec 8), ∃ (i : Fin 18) (n : ModeName),
    exec (.decMode code) s = .next { s with result := .mode i n } ∧
    i.val = (if code.toNat ≤ 17 then code.toNat else 9) ∧
    ["LSB", "USB", "AM", "CW", "RTTY", "FM", "Reserved", "CW-R", "RTTY-R", "N/A", "N/A", "N/A", "N/A", "N/A", "N/A",
     "N/A", "N/A", "DV"][i.val]? = some (modeText n)

/-! ### The host agent -/

/-- R235, R198: a rig that answers with a frequency is read back exactly: request, line, scanner, dispatcher, split
and decoder together. -/
def Obligations.FrequencyReadBack : Prop :=
  ∀ (s : State) (src : Byte) (f : Nat), s.params.legal = true → src ≠ 0x00 → src ≠ 0xFD → f ≤ 9999999999 →
    (readFrequencyHz { writeOk := true, reads := [[0xFE, 0xFE, 0x00, src, 0x03] ++ bcd5 f ++ [0xFD]] } s).value =
      .value (.freqHz (BitVec.ofNat 34 f))

/-- R234 to R237: on a silent line each read call gives its sentinel. -/
def Obligations.SilentLineGivesSentinels : Prop :=
  ∀ (s : State) (hp : HostParams) (reads : List ByteSeq), (∀ r ∈ reads, r = []) →
    (readFrequencyHz { writeOk := true, reads := reads } s).value = .value (.freqHz 0) ∧
    (readOperatingMode hp { writeOk := true, reads := reads } s).value = .value (.mode 9 .na) ∧
    (readSupplyVoltageV hp { writeOk := true, reads := reads } s).value = .value (.volts 0 false)

/-- R240, R192: `readSpectrum` ends with the session ended, whatever the line returns (how the line is presented is the
model's choice, log 15), for every host parameter. -/
def Obligations.SpectrumReadEnds : Prop :=
  ∀ (hp : HostParams) (first : Bool) (line : Line) (s : State),
    (readSpectrum hp first line s).value ≠ .transportFailure →
    inFlight (readSpectrum hp first line s).state.sc = false

/-- R241: the power calls send their one frame and change no register of the block; the host takes what the stream
holds (the model's choice, log 9). -/
def Obligations.PowerCallsSendOneFrame : Prop :=
  ∀ (reads : List ByteSeq) (s : State), s.tx = [] →
    (powerOn { writeOk := true, reads := reads } s).sent = [0xFE, 0xFE, s.cfg.rigAddr, 0x00, 0x18, 0x01, 0xFD] ∧
    (powerOff { writeOk := true, reads := reads } s).sent = [0xFE, 0xFE, s.cfg.rigAddr, 0x00, 0x18, 0x00, 0xFD] ∧
    (powerOn { writeOk := true, reads := reads } s).state.cfg = s.cfg ∧
    (powerOn { writeOk := true, reads := reads } s).state.scan = s.scan ∧
    (powerOn { writeOk := true, reads := reads } s).state.sc = s.sc ∧
    (powerOn { writeOk := true, reads := reads } s).state.err = s.err ∧
    (powerOff { writeOk := true, reads := reads } s).state.cfg = s.cfg ∧
    (powerOff { writeOk := true, reads := reads } s).state.scan = s.scan ∧
    (powerOff { writeOk := true, reads := reads } s).state.sc = s.sc ∧
    (powerOff { writeOk := true, reads := reads } s).state.err = s.err
end

