-- ==== Sys2Proof/Laws/State.lean ====
section
/-! SUPPORT. One lemma per field per update of State, and the same for the operations made of updates: `txPut`,
`raise`, `raiseIf`. -/

namespace Sys2Proof.Machine

@[simp] theorem State.setCfg_cfg (s : State) (c : ConfigRegs) : (s.setCfg c).cfg = c := rfl
@[simp] theorem State.setCfg_scan (s : State) (c : ConfigRegs) : (s.setCfg c).scan = s.scan := rfl
@[simp] theorem State.setCfg_sc (s : State) (c : ConfigRegs) : (s.setCfg c).sc = s.sc := rfl
@[simp] theorem State.setCfg_err (s : State) (c : ConfigRegs) : (s.setCfg c).err = s.err := rfl
@[simp] theorem State.setCfg_tx (s : State) (c : ConfigRegs) : (s.setCfg c).tx = s.tx := rfl
@[simp] theorem State.setCfg_result (s : State) (c : ConfigRegs) : (s.setCfg c).result = s.result := rfl
@[simp] theorem State.setCfg_port (s : State) (c : ConfigRegs) : (s.setCfg c).port = s.port := rfl
@[simp] theorem State.setCfg_params (s : State) (c : ConfigRegs) : (s.setCfg c).params = s.params := rfl

@[simp] theorem State.setScan_cfg (s : State) (r : Scanner) : (s.setScan r).cfg = s.cfg := rfl
@[simp] theorem State.setScan_scan (s : State) (r : Scanner) : (s.setScan r).scan = r := rfl
@[simp] theorem State.setScan_sc (s : State) (r : Scanner) : (s.setScan r).sc = s.sc := rfl
@[simp] theorem State.setScan_err (s : State) (r : Scanner) : (s.setScan r).err = s.err := rfl
@[simp] theorem State.setScan_tx (s : State) (r : Scanner) : (s.setScan r).tx = s.tx := rfl
@[simp] theorem State.setScan_result (s : State) (r : Scanner) : (s.setScan r).result = s.result := rfl
@[simp] theorem State.setScan_port (s : State) (r : Scanner) : (s.setScan r).port = s.port := rfl
@[simp] theorem State.setScan_params (s : State) (r : Scanner) : (s.setScan r).params = s.params := rfl

@[simp] theorem State.setSc_cfg (s : State) (q : Reassembler) : (s.setSc q).cfg = s.cfg := rfl
@[simp] theorem State.setSc_scan (s : State) (q : Reassembler) : (s.setSc q).scan = s.scan := rfl
@[simp] theorem State.setSc_sc (s : State) (q : Reassembler) : (s.setSc q).sc = q := rfl
@[simp] theorem State.setSc_err (s : State) (q : Reassembler) : (s.setSc q).err = s.err := rfl
@[simp] theorem State.setSc_tx (s : State) (q : Reassembler) : (s.setSc q).tx = s.tx := rfl
@[simp] theorem State.setSc_result (s : State) (q : Reassembler) : (s.setSc q).result = s.result := rfl
@[simp] theorem State.setSc_port (s : State) (q : Reassembler) : (s.setSc q).port = s.port := rfl
@[simp] theorem State.setSc_params (s : State) (q : Reassembler) : (s.setSc q).params = s.params := rfl

@[simp] theorem State.setErr_cfg (s : State) (e : BitVec 5) : (s.setErr e).cfg = s.cfg := rfl
@[simp] theorem State.setErr_scan (s : State) (e : BitVec 5) : (s.setErr e).scan = s.scan := rfl
@[simp] theorem State.setErr_sc (s : State) (e : BitVec 5) : (s.setErr e).sc = s.sc := rfl
@[simp] theorem State.setErr_err (s : State) (e : BitVec 5) : (s.setErr e).err = e := rfl
@[simp] theorem State.setErr_tx (s : State) (e : BitVec 5) : (s.setErr e).tx = s.tx := rfl
@[simp] theorem State.setErr_result (s : State) (e : BitVec 5) : (s.setErr e).result = s.result := rfl
@[simp] theorem State.setErr_port (s : State) (e : BitVec 5) : (s.setErr e).port = s.port := rfl
@[simp] theorem State.setErr_params (s : State) (e : BitVec 5) : (s.setErr e).params = s.params := rfl

@[simp] theorem State.setTx_cfg (s : State) (b : ByteSeq) : (s.setTx b).cfg = s.cfg := rfl
@[simp] theorem State.setTx_scan (s : State) (b : ByteSeq) : (s.setTx b).scan = s.scan := rfl
@[simp] theorem State.setTx_sc (s : State) (b : ByteSeq) : (s.setTx b).sc = s.sc := rfl
@[simp] theorem State.setTx_err (s : State) (b : ByteSeq) : (s.setTx b).err = s.err := rfl
@[simp] theorem State.setTx_tx (s : State) (b : ByteSeq) : (s.setTx b).tx = b := rfl
@[simp] theorem State.setTx_result (s : State) (b : ByteSeq) : (s.setTx b).result = s.result := rfl
@[simp] theorem State.setTx_port (s : State) (b : ByteSeq) : (s.setTx b).port = s.port := rfl
@[simp] theorem State.setTx_params (s : State) (b : ByteSeq) : (s.setTx b).params = s.params := rfl

@[simp] theorem State.setResult_cfg (s : State) (r : Result) : (s.setResult r).cfg = s.cfg := rfl
@[simp] theorem State.setResult_scan (s : State) (r : Result) : (s.setResult r).scan = s.scan := rfl
@[simp] theorem State.setResult_sc (s : State) (r : Result) : (s.setResult r).sc = s.sc := rfl
@[simp] theorem State.setResult_err (s : State) (r : Result) : (s.setResult r).err = s.err := rfl
@[simp] theorem State.setResult_tx (s : State) (r : Result) : (s.setResult r).tx = s.tx := rfl
@[simp] theorem State.setResult_result (s : State) (r : Result) : (s.setResult r).result = r := rfl
@[simp] theorem State.setResult_port (s : State) (r : Result) : (s.setResult r).port = s.port := rfl
@[simp] theorem State.setResult_params (s : State) (r : Result) : (s.setResult r).params = s.params := rfl

@[simp] theorem State.setPort_cfg (s : State) (p : List Transaction) : (s.setPort p).cfg = s.cfg := rfl
@[simp] theorem State.setPort_scan (s : State) (p : List Transaction) : (s.setPort p).scan = s.scan := rfl
@[simp] theorem State.setPort_sc (s : State) (p : List Transaction) : (s.setPort p).sc = s.sc := rfl
@[simp] theorem State.setPort_err (s : State) (p : List Transaction) : (s.setPort p).err = s.err := rfl
@[simp] theorem State.setPort_tx (s : State) (p : List Transaction) : (s.setPort p).tx = s.tx := rfl
@[simp] theorem State.setPort_result (s : State) (p : List Transaction) : (s.setPort p).result = s.result := rfl
@[simp] theorem State.setPort_port (s : State) (p : List Transaction) : (s.setPort p).port = p := rfl
@[simp] theorem State.setPort_params (s : State) (p : List Transaction) : (s.setPort p).params = s.params := rfl

@[simp] theorem State.txPut_cfg (s : State) (F : ByteSeq) : (s.txPut F).cfg = s.cfg := rfl
@[simp] theorem State.txPut_scan (s : State) (F : ByteSeq) : (s.txPut F).scan = s.scan := rfl
@[simp] theorem State.txPut_sc (s : State) (F : ByteSeq) : (s.txPut F).sc = s.sc := rfl
@[simp] theorem State.txPut_err (s : State) (F : ByteSeq) : (s.txPut F).err = s.err := rfl
@[simp] theorem State.txPut_tx (s : State) (F : ByteSeq) : (s.txPut F).tx = s.tx ++ F := rfl
@[simp] theorem State.txPut_result (s : State) (F : ByteSeq) : (s.txPut F).result = s.result := rfl
@[simp] theorem State.txPut_port (s : State) (F : ByteSeq) : (s.txPut F).port = s.port := rfl
@[simp] theorem State.txPut_params (s : State) (F : ByteSeq) : (s.txPut F).params = s.params := rfl

@[simp] theorem State.raise_cfg (s : State) (e : Event) : (s.raise e).cfg = s.cfg := by
  cases e <;> rfl
@[simp] theorem State.raise_scan (s : State) (e : Event) : (s.raise e).scan = s.scan := by
  cases e <;> rfl
@[simp] theorem State.raise_sc (s : State) (e : Event) : (s.raise e).sc = raiseSc e s.sc := by
  cases e <;> rfl
/-- What an event does to `ERR`: its flag, if it has one (R251). -/
theorem State.raise_err (s : State) (e : Event) :
    (s.raise e).err = match eventFlag e with
      | some b => errSet b s.err
      | none => s.err := by
  cases e <;> rfl
@[simp] theorem State.raise_tx (s : State) (e : Event) : (s.raise e).tx = s.tx := by
  cases e <;> rfl
@[simp] theorem State.raise_result (s : State) (e : Event) : (s.raise e).result = s.result := by
  cases e <;> rfl
@[simp] theorem State.raise_port (s : State) (e : Event) : (s.raise e).port = s.port := by
  cases e <;> rfl
@[simp] theorem State.raise_params (s : State) (e : Event) : (s.raise e).params = s.params := by
  cases e <;> rfl

@[simp] theorem State.raiseIf_cfg (s : State) (c : Option Event) : (s.raiseIf c).cfg = s.cfg := by
  cases c <;> simp [State.raiseIf]
@[simp] theorem State.raiseIf_scan (s : State) (c : Option Event) : (s.raiseIf c).scan = s.scan := by
  cases c <;> simp [State.raiseIf]
@[simp] theorem State.raiseIf_tx (s : State) (c : Option Event) : (s.raiseIf c).tx = s.tx := by
  cases c <;> simp [State.raiseIf]
@[simp] theorem State.raiseIf_result (s : State) (c : Option Event) : (s.raiseIf c).result = s.result := by
  cases c <;> simp [State.raiseIf]
@[simp] theorem State.raiseIf_port (s : State) (c : Option Event) : (s.raiseIf c).port = s.port := by
  cases c <;> simp [State.raiseIf]
@[simp] theorem State.raiseIf_params (s : State) (c : Option Event) : (s.raiseIf c).params = s.params := by
  cases c <;> simp [State.raiseIf]

/-- The hard-wired register reads as 0 whatever the state (R23). -/
@[simp] theorem HostAddr.value_eq (h : HostAddr) : h.value = hostAddrValue := by
  cases h; rfl

end Sys2Proof.Machine
end

