-- ==== Sys2Proof/Laws/Memory.lean ====
section
/-! SUPPORT. The space AMP: laid out cells are canonical, a read after a fill gives the byte filled in, and the two
operations on the cells keep the canonical form. -/

namespace Sys2Proof.Machine

/-- The indices of laid out cells are consecutive. -/
theorem Memory.layout_indices (A : ByteSeq) (k : Nat) :
    (Memory.layout k A).map (·.1) = List.range' k A.length := by
  induction A generalizing k with
  | nil => rfl
  | cons b bs ih => simp [Memory.layout, ih, List.range'_succ]

/-- A cell of a layout lies at or above its start. -/
theorem Memory.layout_le {A : ByteSeq} {k : Nat} {c : Host.Cell} (h : c ∈ Memory.layout k A) :
    k ≤ c.1 ∧ c.1 < k + A.length := by
  have hm : c.1 ∈ (Memory.layout k A).map (·.1) := List.mem_map_of_mem h
  rw [Memory.layout_indices] at hm
  simpa [List.mem_range'_1] using hm

/-- Laid out cells have strictly rising indices. -/
theorem Memory.layout_pairwise (A : ByteSeq) (k : Nat) :
    (Memory.layout k A).Pairwise (fun a b => a.1 < b.1) := by
  induction A generalizing k with
  | nil => exact List.Pairwise.nil
  | cons b bs ih =>
    refine List.Pairwise.cons (fun c hc => ?_) (ih (k + 1))
    have := (Memory.layout_le hc).1
    omega

/-- Reading laid out cells. -/
theorem Memory.read_layout (A : ByteSeq) (k i : Nat) :
    Memory.read (Memory.layout k A) i = if k ≤ i then A[i - k]? else none := by
  induction A generalizing k with
  | nil => simp [Memory.layout, Memory.read]
  | cons b bs ih =>
    by_cases h : k = i
    · subst h
      simp [Memory.layout, Memory.read]
    · have step : Memory.read (Memory.layout k (b :: bs)) i = Memory.read (Memory.layout (k + 1) bs) i := by
        simp [Memory.layout, Memory.read, h]
      rw [step, ih]
      by_cases hk : k ≤ i
      · have : i - k = (i - (k + 1)) + 1 := by omega
        rw [if_pos (by omega), if_pos hk, this, List.getElem?_cons_succ]
      · rw [if_neg (by omega), if_neg hk]

/-- A read after a fill gives the byte filled in (R65, R188). -/
theorem Memory.read_fill (A : ByteSeq) (i : Nat) : Memory.read (Memory.fill A) i = A[i]? := by
  simp [Memory.fill, Memory.read_layout]

/-- The cells of a fill, index by index. -/
theorem Memory.fill_indices (A : ByteSeq) : (Memory.fill A).map (·.1) = List.range A.length := by
  rw [Memory.fill, Memory.layout_indices, List.range_eq_range']

/-- A fill of at most 475 bytes is canonical. -/
theorem Memory.fill_wf (A : ByteSeq) (h : A.length ≤ nSamples) : (Memory.fill A).wf = true := by
  simp only [Memory.wf, Bool.and_eq_true, decide_eq_true_eq, List.all_eq_true]
  refine ⟨Memory.layout_pairwise A 0, fun c hc => ?_⟩
  have := (Memory.layout_le hc).2
  omega

/-- The empty space is canonical. -/
theorem Memory.empty_wf : Memory.empty.wf = true := rfl

/-- The cells of a state are canonical after reset. -/
theorem reset_amp_wf : State.reset.sc.amp.wf = true := rfl

end Sys2Proof.Machine
end

