-- ==== Sys2Proof/Laws/Ops.lean ====
section
/-! SUPPORT. One lemma for each shared operation that says what it can do; callers cite these and do not unfold. -/

namespace Sys2Proof.Machine

/-! ### Flags and events -/

/-- Setting a flag sets that flag and no other (R37). -/
theorem errTest_errSet (b c : ErrBit) (e : BitVec 5) : errTest b (errSet c e) = (errTest b e || decide (b = c)) := by
  revert e
  cases b <;> cases c <;> decide

/-- Events with a flag record no result code, so they leave the reassembler alone (R251). -/
theorem raiseSc_of_flag {e : Event} {b : ErrBit} (h : eventFlag e = some b) (q : Reassembler) : raiseSc e q = q := by
  cases e <;> simp_all [eventFlag, raiseSc, eventResult]

/-- A decoder's sentinel cases change nothing (R253). -/
theorem State.raise_decodeMismatch (s : State) {c : DecodeCause} (h : c ≠ .scopeLen) :
    s.raise (.decodeMismatch c) = s := by
  cases c <;> simp_all [State.raise, eventFlag, raiseSc, eventResult, State.setSc]

/-! ### Transmit -/

/-- `TX.ENCODE` with legal lengths (R130). -/
theorem txEncodeOp_ok {dst : Byte} {cmd payload : ByteSeq} (h : txLengthsOk cmd payload = true) (s : State) :
    txEncodeOp dst cmd payload s =
      .next { s with tx := s.tx ++ wireFrame dst hostAddrValue (cmd ++ payload),
                     result := .txBytes (wireFrame dst hostAddrValue (cmd ++ payload)) } := by
  simp [txEncodeOp, h, returning, State.txPut, State.setTx, State.setResult]

/-- `TX.ENCODE` with illegal lengths (R131). -/
theorem txEncodeOp_refused {cmd payload : ByteSeq} (h : txLengthsOk cmd payload = false) (dst : Byte) (s : State) :
    txEncodeOp dst cmd payload s = .next { s with err := errSet .txArg s.err, result := .refused } := by
  simp [txEncodeOp, h, returning, State.raise, eventFlag, raiseSc, eventResult, State.setErr, State.setSc, State.setResult]

/-- A catalog path has legal lengths. -/
theorem txLengthsOk_catalog (k : CatalogCmd) : txLengthsOk (catalogPath k) [] = true := by
  cases k <;> rfl

/-- A catalog form emits its frame to `RIG_ADDR` (R108). -/
theorem catalogOp_eq (k : CatalogCmd) (s : State) :
    catalogOp k s =
      .next { s with tx := s.tx ++ wireFrame s.cfg.rigAddr hostAddrValue (catalogPath k),
                     result := .txBytes (wireFrame s.cfg.rigAddr hostAddrValue (catalogPath k)) } := by
  rw [catalogOp, txEncodeOp_ok (txLengthsOk_catalog k), List.append_nil]

/-! ### The command path of a body -/

/-- A catalog path at the head of a body is the one found: no catalog path is a leading part of another (R95). -/
theorem findPath_append (k : CatalogCmd) (rest : ByteSeq) : findPath (catalogPath k ++ rest) = some k := by
  cases k <;> simp [findPath, catalog, catalogPath, longerPath, List.isPrefixOf]

/-- The path found is a leading part of the body (R95). -/
theorem findPath_prefix {Y : ByteSeq} {k : CatalogCmd} (h : findPath Y = some k) : catalogPath k <+: Y := by
  have pick : ∀ (l : List CatalogCmd) (best : Option CatalogCmd),
      l.foldl longerPath best = some k → k ∈ l ∨ best = some k := by
    intro l
    induction l with
    | nil => intro best hb; exact .inr hb
    | cons a as ih =>
      intro best hb
      rcases ih _ hb with hm | hl
      · exact .inl (List.mem_cons_of_mem _ hm)
      · cases best with
        | none => exact .inl (by simp_all [longerPath])
        | some b =>
          simp only [longerPath] at hl
          split at hl
          · exact .inl (by simp_all)
          · exact .inr hl
  rcases pick _ _ h with hm | hn
  · exact List.isPrefixOf_iff_prefix.mp (List.mem_filter.mp hm).2
  · cases hn

/-- Command path and payload make up the body (R95, R159). -/
theorem splitCmd_append_splitPayload (Y : ByteSeq) : splitCmd Y ++ splitPayload Y = Y := by
  have h : splitCmd Y <+: Y := by
    unfold splitCmd
    split
    · next k hk => exact findPath_prefix hk
    · exact List.take_prefix 1 Y
  exact List.prefix_iff_eq_append.mp h

/-! ### The scanner -/

/-- What one scanner step can hand on (R150 to R156). -/
theorem scannerStep_cases (cap : Option Nat) (host x : Byte) (r : Scanner) :
    (scannerStep cap host x r).2 = .quiet ∨
    ((scannerStep cap host x r).2 = .accepted r.rxbuf ∧ r.rxs = .body ∧ x = postamble ∧ 3 ≤ r.rxbuf.length ∧
      (scannerStep cap host x r).1 = Scanner.reset) ∨
    ((scannerStep cap host x r).2 = .overrun ∧ r.rxs = .body ∧ x ≠ postamble ∧ bufferFull cap r.rxbuf.length = true ∧
      (scannerStep cap host x r).1 = huntOn x) := by
  rcases r with ⟨st, buf⟩
  cases st with
  | hunt => exact .inl rfl
  | pre1 => exact .inl rfl
  | dst => refine .inl ?_; simp only [scannerStep]; split <;> rfl
  | body =>
    by_cases hx : x = postamble
    · by_cases hl : minCandidate ≤ buf.length
      · exact .inr (.inl ⟨by simp [scannerStep, hx, closeCandidate, hl], rfl, hx, hl, by
          simp [scannerStep, hx, Scanner.reset]⟩)
      · exact .inl (by simp [scannerStep, hx, closeCandidate, hl])
    · by_cases hf : bufferFull cap buf.length = true
      · exact .inr (.inr (by simp [scannerStep, hx, hf]))
      · exact .inl (by simp [scannerStep, hx, hf])

/-! ### RX.BYTE -/

/-- What one `RX.BYTE` can do (R150): move the scanner only; or drop an overrun candidate; or emit a frame. -/
theorem rxByteOp_cases (x : Byte) (s : State) :
    rxByteOp x s = (s.setScan (scannerStep s.params.rxbufCap hostAddrValue x s.scan).1, none) ∨
    (s.scan.rxs = .body ∧ x ≠ postamble ∧ bufferFull s.params.rxbufCap s.scan.rxbuf.length = true ∧
      rxByteOp x s = ({ s with scan := huntOn x, err := errSet .rxOverrun s.err }, none)) ∨
    (s.scan.rxs = .body ∧ x = postamble ∧ 3 ≤ s.scan.rxbuf.length ∧
      rxByteOp x s = ({ s with scan := Scanner.reset, sc := scopeDispatch (frameEmit s.params hostAddrValue s.scan.rxbuf) s.sc },
        some (frameEmit s.params hostAddrValue s.scan.rxbuf))) := by
  rcases scannerStep_cases s.params.rxbufCap hostAddrValue x s.scan with hq | ⟨ha, hb, hx, hl, h1⟩ | ⟨ho, hb, hx, hf, h1⟩
  · exact .inl (by simp [rxByteOp, hq])
  · exact .inr (.inr ⟨hb, hx, hl, by simp [rxByteOp, ha, h1, State.setScan, State.setSc]⟩)
  · exact .inr (.inl ⟨hb, hx, hf, by
      simp [rxByteOp, ho, h1, State.setScan, State.raise, eventFlag, raiseSc, eventResult, State.setErr, State.setSc]⟩)

@[simp] theorem rxByteOp_cfg (x : Byte) (s : State) : (rxByteOp x s).1.cfg = s.cfg := by
  rcases rxByteOp_cases x s with h | ⟨-, -, -, h⟩ | ⟨-, -, -, h⟩ <;> simp [h]
@[simp] theorem rxByteOp_tx (x : Byte) (s : State) : (rxByteOp x s).1.tx = s.tx := by
  rcases rxByteOp_cases x s with h | ⟨-, -, -, h⟩ | ⟨-, -, -, h⟩ <;> simp [h]
@[simp] theorem rxByteOp_result (x : Byte) (s : State) : (rxByteOp x s).1.result = s.result := by
  rcases rxByteOp_cases x s with h | ⟨-, -, -, h⟩ | ⟨-, -, -, h⟩ <;> simp [h]
@[simp] theorem rxByteOp_port (x : Byte) (s : State) : (rxByteOp x s).1.port = s.port := by
  rcases rxByteOp_cases x s with h | ⟨-, -, -, h⟩ | ⟨-, -, -, h⟩ <;> simp [h]
@[simp] theorem rxByteOp_params (x : Byte) (s : State) : (rxByteOp x s).1.params = s.params := by
  rcases rxByteOp_cases x s with h | ⟨-, -, -, h⟩ | ⟨-, -, -, h⟩ <;> simp [h]

/-- `RX.BYTE` sets no flag but `RX_OVERRUN` (R150, R260). -/
theorem rxByteOp_err (x : Byte) (s : State) :
    (rxByteOp x s).1.err = s.err ∨ (rxByteOp x s).1.err = errSet .rxOverrun s.err := by
  rcases rxByteOp_cases x s with h | ⟨-, -, -, h⟩ | ⟨-, -, -, h⟩ <;> simp [h]

/-- The scanner moves by its own step whatever the rest of the block holds (R169). -/
theorem rxByteOp_scan (x : Byte) (s : State) :
    (rxByteOp x s).1.scan = (scannerStep s.params.rxbufCap hostAddrValue x s.scan).1 := by
  simp only [rxByteOp, HostAddr.value_eq]
  split <;> simp

/-- `RX.BYTE` touches the reassembler only through `SC.FRAME` (R160). -/
theorem rxByteOp_sc (x : Byte) (s : State) :
    (rxByteOp x s).1.sc = s.sc ∨ ∃ sub P, (rxByteOp x s).1.sc = scFrame sub P s.sc := by
  rcases rxByteOp_cases x s with h | ⟨-, -, -, h⟩ | ⟨-, -, -, h⟩
  · simp [h]
  · simp [h]
  · rw [h]
    simp only [scopeDispatch]
    split
    · next sub P _ => exact .inr ⟨sub, P, rfl⟩
    · exact .inl rfl

/-! ### A run of received bytes -/

/-- Receiving bytes in two parts is receiving them at once (R163). -/
theorem receiveBytes_append (b c : ByteSeq) (s : State) :
    receiveBytes (b ++ c) s =
      ((receiveBytes c (receiveBytes b s).1).1, (receiveBytes b s).2 ++ (receiveBytes c (receiveBytes b s).1).2) := by
  induction b generalizing s with
  | nil => simp [receiveBytes]
  | cons x xs ih => simp [receiveBytes, ih]

/-- A property of states that every `RX.BYTE` keeps holds after any run of bytes. -/
theorem receiveBytes_keeps {keep : State → Prop} (one : ∀ x s, keep s → keep (rxByteOp x s).1) (b : ByteSeq) :
    ∀ s, keep s → keep (receiveBytes b s).1 := by
  induction b with
  | nil => exact fun s h => h
  | cons x xs ih => exact fun s h => ih _ (one x s h)

@[simp] theorem receiveBytes_cfg (b : ByteSeq) (s : State) : (receiveBytes b s).1.cfg = s.cfg :=
  receiveBytes_keeps (keep := fun t => t.cfg = s.cfg) (fun x t h => by simp [h]) b s rfl
@[simp] theorem receiveBytes_tx (b : ByteSeq) (s : State) : (receiveBytes b s).1.tx = s.tx :=
  receiveBytes_keeps (keep := fun t => t.tx = s.tx) (fun x t h => by simp [h]) b s rfl
@[simp] theorem receiveBytes_result (b : ByteSeq) (s : State) : (receiveBytes b s).1.result = s.result :=
  receiveBytes_keeps (keep := fun t => t.result = s.result) (fun x t h => by simp [h]) b s rfl
@[simp] theorem receiveBytes_port (b : ByteSeq) (s : State) : (receiveBytes b s).1.port = s.port :=
  receiveBytes_keeps (keep := fun t => t.port = s.port) (fun x t h => by simp [h]) b s rfl
@[simp] theorem receiveBytes_params (b : ByteSeq) (s : State) : (receiveBytes b s).1.params = s.params :=
  receiveBytes_keeps (keep := fun t => t.params = s.params) (fun x t h => by simp [h]) b s rfl

/-! ### The reassembler -/

/-- What one `SC.FRAME` can do (R183 to R190). -/
theorem scFrame_cases (sub : Byte) (P : ByteSeq) (q : Reassembler) :
    scFrame sub P q = q ∨
    (q.scState = .awaitingHeader ∧ sub = markFirst ∧ scFrame sub P q = scHeader P q) ∨
    (q.scState = .accumulating ∧ sub ≠ markLast ∧ scFrame sub P q = { q with acc := q.acc ++ P }) ∨
    (q.scState = .accumulating ∧ sub = markLast ∧ scFrame sub P q = scComplete (q.acc ++ P) q) := by
  unfold scFrame
  cases q.scState with
  | idle => simp
  | complete => simp
  | awaitingHeader => by_cases h : sub = markFirst <;> simp [h]
  | accumulating => by_cases h : sub = markLast <;> simp [h]

/-- What `SC.ATTEMPT` can do to the registers (R191, R192). -/
theorem scCount_cases (q : Reassembler) :
    (inFlight q = false ∧ scCount q = q) ∨
    (inFlight q = true ∧ q.attCount.toNat + 1 < q.attBudget.toNat ∧
      scCount q = { q with attCount := q.attCount + 1 }) ∨
    (inFlight q = true ∧ q.attBudget.toNat ≤ q.attCount.toNat + 1 ∧
      scCount q = scAbandon { q with attCount := q.attCount + 1 }) := by
  unfold scCount
  by_cases h : inFlight q = true
  · by_cases hb : q.attBudget.toNat ≤ q.attCount.toNat + 1
    · exact .inr (.inr (by simp [h, hb]))
    · exact .inr (.inl (by simp [h, hb]; omega))
  · exact .inl (by simp_all)

/-- `SC.FRAME` keeps the attempt counter and the budget (R186, R187). -/
@[simp] theorem scFrame_attBudget (sub : Byte) (P : ByteSeq) (q : Reassembler) :
    (scFrame sub P q).attBudget = q.attBudget := by
  rcases scFrame_cases sub P q with h | ⟨-, -, h⟩ | ⟨-, -, h⟩ | ⟨-, -, h⟩ <;> rw [h] <;>
    simp only [scHeader, scComplete, raiseSc, eventResult]
  split <;> rfl
@[simp] theorem scFrame_attCount (sub : Byte) (P : ByteSeq) (q : Reassembler) :
    (scFrame sub P q).attCount = q.attCount := by
  rcases scFrame_cases sub P q with h | ⟨-, -, h⟩ | ⟨-, -, h⟩ | ⟨-, -, h⟩ <;> rw [h] <;>
    simp only [scHeader, scComplete, raiseSc, eventResult]
  split <;> rfl

end Sys2Proof.Machine
end

