-- ==== Sys2Proof/Laws/Block.lean ====
section
/-! SUPPORT. The block is its registers (R20): what an operation does to them, and what it returns, depends on them and
on the parameters alone, never on the transmit stream, the last result or the queue beside them. -/

namespace Sys2Proof.Machine

/-- The same block beside another transmit stream, another last result and another queue. -/
def State.beside (s u : State) : State := { u with toBlock := s.toBlock, params := s.params }

/-- The registers after an operation and what it returned. -/
def blockOutcome (o : Host.Outcome State Fault Refusal) : Option (Block × Result) :=
  match o with
  | .next t => some (t.toBlock, t.result)
  | .fault _ => none
  | .refused _ => none

/-- `RX.BYTE` does not look beside the registers. -/
theorem rxByteOp_beside (x : Byte) (s u : State) :
    rxByteOp x (s.beside u) = ((rxByteOp x s).1.beside u, (rxByteOp x s).2) := by
  simp only [rxByteOp, State.beside]
  split <;> simp [State.setScan, State.setSc, State.raise, eventFlag, raiseSc, eventResult, State.setErr]

/-- Nor does receiving any run of bytes. -/
theorem receiveBytes_beside (b : ByteSeq) (s u : State) :
    receiveBytes b (s.beside u) = ((receiveBytes b s).1.beside u, (receiveBytes b s).2) := by
  induction b generalizing s with
  | nil => rfl
  | cons x xs ih => simp [receiveBytes, rxByteOp_beside, ih]

/-- Receiving a run of bytes, as an operation. -/
theorem receiveRun_beside (b : ByteSeq) (s u : State) :
    blockOutcome (receiveRun b (s.beside u)) = blockOutcome (receiveRun b s) := by
  simp only [receiveRun, receiveBytes_beside]
  rfl

/-- `TX.ENCODE`. -/
theorem txEncodeOp_beside (dst : Byte) (cmd payload : ByteSeq) (s u : State) :
    blockOutcome (txEncodeOp dst cmd payload (s.beside u)) = blockOutcome (txEncodeOp dst cmd payload s) := by
  unfold txEncodeOp
  split <;> rfl

/-- A catalog form. -/
theorem catalogOp_beside (k : CatalogCmd) (s u : State) :
    blockOutcome (catalogOp k (s.beside u)) = blockOutcome (catalogOp k s) :=
  txEncodeOp_beside s.cfg.rigAddr (catalogPath k) [] s u

/-- Every operation: the registers and the result depend on the registers and the parameters alone (R20). -/
theorem exec_beside (i : Instr) (s u : State) :
    blockOutcome (exec i (s.beside u)) = blockOutcome (exec i s) := by
  cases i with
  | reset | rxFlush | scAttempt | scAbort | reservedOp => rfl
  | cfgProfile name =>
    simp only [exec, execCfgProfile, State.beside]
    split <;> rfl
  | rxByte x =>
    simp only [exec, execRxByte, rxByteOp_beside]
    rfl
  | scReq budget =>
    by_cases h : inFlight s.sc = true <;> simp only [exec, execScReq, State.beside, h] <;> rfl
  | decFreq bytes =>
    simp only [exec, execDecFreq]
    cases freqCause bytes with
    | none => rfl
    | some e => cases e <;> rfl
  | decSpan bytes =>
    simp only [exec, execDecSpan]
    cases spanCause bytes with
    | none => rfl
    | some e => cases e <;> rfl
  | decVolt raw =>
    simp only [exec, execDecVolt]
    cases voltCause raw.toInt with
    | none => rfl
    | some e => cases e <;> rfl
  | decMode code =>
    simp only [exec, execDecMode]
    cases modeCause code with
    | none => rfl
    | some e => cases e <;> rfl
  | txEncode | txframeGeneric => exact txEncodeOp_beside _ _ _ s u
  | rdfreq => exact catalogOp_beside .readFreq s u
  | rdmode => exact catalogOp_beside .readMode s u
  | pwron => exact catalogOp_beside .powerOn s u
  | pwroff => exact catalogOp_beside .powerOff s u
  | rdvolt => exact catalogOp_beside .readVolt s u
  | scopedispOn => exact catalogOp_beside .scopeDispOn s u
  | scopedispOff => exact catalogOp_beside .scopeDispOff s u
  | scopeoutOn => exact catalogOp_beside .scopeOutOn s u
  | scopeoutOff => exact catalogOp_beside .scopeOutOff s u
  | rdscope => exact catalogOp_beside .readScope s u
  | rxFreq | rxMode | rxPwron | rxPwroff | rxVolt | rxScopedispOn | rxScopedispOff | rxScopeoutOn | rxScopeoutOff
    | rxScope | rxScopeFirst | rxScopeLast | rxScopeMid | rxUnknown => exact receiveRun_beside _ s u

end Sys2Proof.Machine
end

