-- ==== Sys2Proof/Laws/PerInstr.lean ====
section
/-! SUPPORT. Statements about every instruction as syntax, one lemma per constructor. `TableRow`: the encoding lies
in the format of the instruction's row of spec/opcode_table.json and begins as the row's match says (R100, R111). -/

namespace Sys2Proof.Laws.TableRow

/-- The lane of the row's format, and the byte its encodings begin with: the operation code, or the preamble. -/
def row : Instr → Lane × Byte
  | .reset => (.op, 0x0)
  | .cfgProfile _ => (.op, 0x1)
  | .txEncode _ _ _ => (.op, 0x2)
  | .rxByte _ => (.op, 0x3)
  | .rxFlush => (.op, 0x4)
  | .scReq _ => (.op, 0x5)
  | .scAttempt => (.op, 0x6)
  | .scAbort => (.op, 0x7)
  | .decFreq _ => (.op, 0x8)
  | .decSpan _ => (.op, 0x9)
  | .decVolt _ => (.op, 0xA)
  | .decMode _ => (.op, 0xB)
  | .reservedOp code _ => (.op, BitVec.ofNat 8 (12 + code.toNat))
  | .rdfreq => (.tx, 0xFE)
  | .rdmode => (.tx, 0xFE)
  | .pwron => (.tx, 0xFE)
  | .pwroff => (.tx, 0xFE)
  | .rdvolt => (.tx, 0xFE)
  | .scopedispOn => (.tx, 0xFE)
  | .scopedispOff => (.tx, 0xFE)
  | .scopeoutOn => (.tx, 0xFE)
  | .scopeoutOff => (.tx, 0xFE)
  | .rdscope => (.tx, 0xFE)
  | .txframeGeneric _ _ => (.tx, 0xFE)
  | .rxFreq _ _ => (.rx, 0xFE)
  | .rxMode _ _ => (.rx, 0xFE)
  | .rxPwron _ _ => (.rx, 0xFE)
  | .rxPwroff _ _ => (.rx, 0xFE)
  | .rxVolt _ _ => (.rx, 0xFE)
  | .rxScopedispOn _ _ => (.rx, 0xFE)
  | .rxScopedispOff _ _ => (.rx, 0xFE)
  | .rxScopeoutOn _ _ => (.rx, 0xFE)
  | .rxScopeoutOff _ _ => (.rx, 0xFE)
  | .rxScope _ => (.rx, 0xFE)
  | .rxScopeFirst _ _ => (.rx, 0xFE)
  | .rxScopeLast _ _ => (.rx, 0xFE)
  | .rxScopeMid _ _ _ => (.rx, 0xFE)
  | .rxUnknown _ _ _ => (.rx, 0xFE)

/-- The encoding of an instruction is one of its row, in every reading. -/
def Statement (i : Instr) : Prop :=
  ∀ rd : Reading, (encode rd i).lane = (row i).1 ∧ (encode rd i).bytes.head? = some (row i).2

theorem reset : Statement .reset := fun _ => ⟨rfl, rfl⟩
theorem cfgProfile (name : ByteSeq) : Statement (.cfgProfile name) := fun _ => ⟨rfl, rfl⟩
theorem txEncode (dst : Byte) (cmd : ByteSeq) (payload : ByteSeq) : Statement (.txEncode dst cmd payload) := fun _ => ⟨rfl, rfl⟩
theorem rxByte (x : Byte) : Statement (.rxByte x) := fun _ => ⟨rfl, rfl⟩
theorem rxFlush : Statement .rxFlush := fun _ => ⟨rfl, rfl⟩
theorem scReq (budget : BitVec 8) : Statement (.scReq budget) := fun _ => ⟨rfl, rfl⟩
theorem scAttempt : Statement .scAttempt := fun _ => ⟨rfl, rfl⟩
theorem scAbort : Statement .scAbort := fun _ => ⟨rfl, rfl⟩
theorem decFreq (bytes : ByteSeq) : Statement (.decFreq bytes) := fun _ => ⟨rfl, rfl⟩
theorem decSpan (bytes : ByteSeq) : Statement (.decSpan bytes) := fun _ => ⟨rfl, rfl⟩
theorem decVolt (raw : BitVec 16) : Statement (.decVolt raw) := fun _ => ⟨rfl, rfl⟩
theorem decMode (code : BitVec 8) : Statement (.decMode code) := fun _ => ⟨rfl, rfl⟩
theorem reservedOp (code : BitVec 2) (operands : ByteSeq) : Statement (.reservedOp code operands) := fun _ => ⟨rfl, rfl⟩
theorem rdfreq : Statement .rdfreq := fun _ => ⟨rfl, rfl⟩
theorem rdmode : Statement .rdmode := fun _ => ⟨rfl, rfl⟩
theorem pwron : Statement .pwron := fun _ => ⟨rfl, rfl⟩
theorem pwroff : Statement .pwroff := fun _ => ⟨rfl, rfl⟩
theorem rdvolt : Statement .rdvolt := fun _ => ⟨rfl, rfl⟩
theorem scopedispOn : Statement .scopedispOn := fun _ => ⟨rfl, rfl⟩
theorem scopedispOff : Statement .scopedispOff := fun _ => ⟨rfl, rfl⟩
theorem scopeoutOn : Statement .scopeoutOn := fun _ => ⟨rfl, rfl⟩
theorem scopeoutOff : Statement .scopeoutOff := fun _ => ⟨rfl, rfl⟩
theorem rdscope : Statement .rdscope := fun _ => ⟨rfl, rfl⟩
theorem txframeGeneric (dst : Byte) (body : ByteSeq) : Statement (.txframeGeneric dst body) := fun _ => ⟨rfl, rfl⟩
theorem rxFreq (src : Byte) (payload : ByteSeq) : Statement (.rxFreq src payload) := fun _ => ⟨rfl, rfl⟩
theorem rxMode (src : Byte) (payload : ByteSeq) : Statement (.rxMode src payload) := fun _ => ⟨rfl, rfl⟩
theorem rxPwron (src : Byte) (payload : ByteSeq) : Statement (.rxPwron src payload) := fun _ => ⟨rfl, rfl⟩
theorem rxPwroff (src : Byte) (payload : ByteSeq) : Statement (.rxPwroff src payload) := fun _ => ⟨rfl, rfl⟩
theorem rxVolt (src : Byte) (payload : ByteSeq) : Statement (.rxVolt src payload) := fun _ => ⟨rfl, rfl⟩
theorem rxScopedispOn (src : Byte) (payload : ByteSeq) : Statement (.rxScopedispOn src payload) := fun _ => ⟨rfl, rfl⟩
theorem rxScopedispOff (src : Byte) (payload : ByteSeq) : Statement (.rxScopedispOff src payload) := fun _ => ⟨rfl, rfl⟩
theorem rxScopeoutOn (src : Byte) (payload : ByteSeq) : Statement (.rxScopeoutOn src payload) := fun _ => ⟨rfl, rfl⟩
theorem rxScopeoutOff (src : Byte) (payload : ByteSeq) : Statement (.rxScopeoutOff src payload) := fun _ => ⟨rfl, rfl⟩
theorem rxScope (frame : ShortScope) : Statement (.rxScope frame) := fun _ => ⟨rfl, rfl⟩
theorem rxScopeFirst (src : Byte) (rest : ScopeRest) : Statement (.rxScopeFirst src rest) := fun _ => ⟨rfl, rfl⟩
theorem rxScopeLast (src : Byte) (rest : ScopeRest) : Statement (.rxScopeLast src rest) := fun _ => ⟨rfl, rfl⟩
theorem rxScopeMid (src sub : Byte) (rest : ScopeRest) : Statement (.rxScopeMid src sub rest) := fun _ => ⟨rfl, rfl⟩
theorem rxUnknown (src : Byte) (cmd : Byte) (payload : ByteSeq) : Statement (.rxUnknown src cmd payload) := fun _ => ⟨rfl, rfl⟩

end Sys2Proof.Laws.TableRow
end

