-- ==== Sys2Proof/Tests/Slice0.lean ====
section
/-! SUPPORT. Tests: the well-formedness checks refuse; words written out from the spec's encodings decode; one step of
each operation on the vectors of 95_test_vectors.md; and a witness for the hypotheses of each statement. Expected
results come from the spec, not from the model. -/

namespace Sys2Proof.Tests

open Sys2Proof.Machine

/-! ### Helpers -/

/-- The state an operation leads to. -/
def after (i : Instr) (s : State) : State := issue i s

/-- Reset, with the scanner collecting these bytes. -/
def collecting (buf : ByteSeq) : State := State.reset.setScan { rxs := .body, rxbuf := buf }

/-- Reset, with the scanner in a state that holds nothing. -/
def scanning (r : Rxs) : State := State.reset.setScan { rxs := r, rxbuf := [] }

/-- Reset, with a candidate buffer of 64 bytes that holds `n` bytes after the two addresses. -/
def capped (n : Nat) : State :=
  { collecting (0x00 :: 0x94 :: List.replicate n 0x11) with
    params := { defaultParams with rxbufCap := some 64 } }

/-- The reading under the profile of the IC-7300, at the default offsets. -/
def rig : Reading := { rigAddr := 0x94, subOff := 0 }

/-- The same with the sub-marker at offset 2. -/
def rigLate : Reading := { rigAddr := 0x94, subOff := 2 }

/-- A state with the sub-marker at offset 2 and the scope payload from offset 4 on. -/
def late (s : State) : State :=
  { s with params := { defaultParams with scopeSubOff := 2, scopeDataOff := 4 } }

/-- Reset, then a session waiting for its header. -/
def awaiting (budget count : BitVec 8) : State :=
  State.reset.setSc { Reassembler.reset with scState := .awaitingHeader, attBudget := budget, attCount := count }

/-- A session that has its header and has accumulated these bytes. -/
def accumulating (acc : ByteSeq) : State :=
  State.reset.setSc { Reassembler.reset with
    scState := .accumulating, acc := acc, centerHz := 145000000, spanHz := 2500, attCount := 3 }

/-- A session completed with a decode failure. -/
def completed : State :=
  State.reset.setSc { Reassembler.reset with scState := .complete, scResult := .decodeFail, centerHz := 145000000 }

/-- A completed session with 475 samples of value 7. -/
def swept : State :=
  State.reset.setSc { Reassembler.reset with
    scState := .complete, scResult := .ok, amp := Memory.fill (List.replicate 475 7), ampLen := 475 }

/-- Reset, then `CFG.PROFILE` of the IC-7300. -/
def tuned : State := after (.cfgProfile [0x49, 0x43, 0x2D, 0x37, 0x33, 0x30, 0x30]) State.reset

/-- The frame of vector SC-2 without its delimiters, addresses, path and marker. -/
def headerPayload : ByteSeq := [0x00, 0x00, 0x00, 0x00, 0x45, 0x01, 0x00, 0x25, 0x00, 0x00, 0x00, 0x00, 0xAA]

/-- The length of an accumulated run and a chunk. -/
theorem lengths (m n : Nat) : (List.replicate m (1 : Byte) ++ List.replicate n (2 : Byte)).length = m + n := by
  rw [List.length_append, List.length_replicate, List.length_replicate]

/-! ### Well-formedness refuses -/

theorem test_wf_generic_empty : (Instr.txframeGeneric 0x94 []).wellFormed rig = false := by decide
theorem test_wf_generic_54 : (Instr.txframeGeneric 0x94 (List.replicate 54 1)).wellFormed rig = false := by decide
theorem test_wf_generic_53 : (Instr.txframeGeneric 0x94 (List.replicate 53 1)).wellFormed rig = true := by decide
theorem test_wf_generic_catalog : (Instr.txframeGeneric 0x94 [0x27, 0x00]).wellFormed rig = false ∧
    (Instr.txframeGeneric 0x86 [0x27, 0x00]).wellFormed rig = true := by decide
theorem test_wf_rx_source : (Instr.rxFreq 0xFD [0x00]).wellFormed rig = false := by decide
theorem test_wf_rx_payload :
    (Instr.rxFreq 0x94 [0xFD]).wellFormed rig = false ∧ (Instr.rxMode 0x94 [0xFD]).wellFormed rig = false ∧
    (Instr.rxPwron 0x94 [0xFD]).wellFormed rig = false ∧ (Instr.rxPwroff 0x94 [0xFD]).wellFormed rig = false ∧
    (Instr.rxVolt 0x94 [0xFD]).wellFormed rig = false ∧ (Instr.rxScopedispOn 0x94 [0xFD]).wellFormed rig = false ∧
    (Instr.rxScopedispOff 0x94 [0xFD]).wellFormed rig = false ∧ (Instr.rxScopeoutOn 0x94 [0xFD]).wellFormed rig = false ∧
    (Instr.rxScopeoutOff 0x94 [0xFD]).wellFormed rig = false := by decide
theorem test_wf_rx_scope :
    (Instr.rxScope ⟨0xFD, []⟩).wellFormed rig = false ∧ (Instr.rxScopeFirst 0x94 ⟨[], [0xFD]⟩).wellFormed rig = false ∧
    (Instr.rxScopeLast 0x94 ⟨[], [0x01, 0xFD]⟩).wellFormed rig = false ∧ (Instr.rxScopeMid 0x94 0xFD ⟨[], []⟩).wellFormed rig = false := by
  decide
theorem test_wf_offsets :
    (Instr.rxScope ⟨0x94, [0x01]⟩).wellFormed rig = false ∧ (Instr.rxScope ⟨0x94, [0x01, 0x01]⟩).wellFormed rigLate = true ∧
    (Instr.rxScopeFirst 0x94 ⟨[0x05], []⟩).wellFormed rig = false ∧
    (Instr.rxScopeFirst 0x94 ⟨[0x05, 0x06], []⟩).wellFormed rigLate = true := by decide
theorem test_wf_mid_markers :
    (Instr.rxScopeMid 0x94 0x01 ⟨[], []⟩).wellFormed rig = false ∧ (Instr.rxScopeMid 0x94 0x11 ⟨[], []⟩).wellFormed rig = false ∧
    (Instr.rxScopeMid 0x94 0x02 ⟨[], []⟩).wellFormed rig = true := by decide
theorem test_wf_unknown :
    (Instr.rxUnknown 0x94 0x03 []).wellFormed rig = false ∧ (Instr.rxUnknown 0x94 0x27 [0x00]).wellFormed rig = false ∧
    (Instr.rxUnknown 0x94 0x05 [0xFD]).wellFormed rig = false ∧ (Instr.rxUnknown 0x94 0x27 [0x10]).wellFormed rig = true := by
  decide

/-! ### Words written out from R90, R94, R100 and R111 decode -/

theorem test_decode_op_codes :
    decode rig ⟨.op, [0b00000000]⟩ = .ok .reset ∧
    decode rig ⟨.op, [0b00000001, 1, 0x49, 1, 0x44, 0]⟩ = .ok (.cfgProfile [0x49, 0x44]) ∧
    decode rig ⟨.op, [0b00000010, 0x94, 1, 0x03, 0, 1, 0xAA, 0]⟩ = .ok (.txEncode 0x94 [0x03] [0xAA]) ∧
    decode rig ⟨.op, [0b00000011, 0xFD]⟩ = .ok (.rxByte 0xFD) ∧
    decode rig ⟨.op, [0b00000100]⟩ = .ok .rxFlush ∧
    decode rig ⟨.op, [0b00000101, 0x0F]⟩ = .ok (.scReq 15) ∧
    decode rig ⟨.op, [0b00000110]⟩ = .ok .scAttempt ∧
    decode rig ⟨.op, [0b00000111]⟩ = .ok .scAbort := by decide
theorem test_decode_op_decoders :
    decode rig ⟨.op, [0b00001000, 1, 0x45, 0]⟩ = .ok (.decFreq [0x45]) ∧
    decode rig ⟨.op, [0b00001001, 1, 0x25, 0]⟩ = .ok (.decSpan [0x25]) ∧
    decode rig ⟨.op, [0b00001010, 0xFF, 0x80]⟩ = .ok (.decVolt 0x80FF) ∧
    decode rig ⟨.op, [0b00001011, 17]⟩ = .ok (.decMode 17) ∧
    decode rig ⟨.op, [0b00001100]⟩ = .ok (.reservedOp 0 []) ∧
    decode rig ⟨.op, [0b00001101]⟩ = .ok (.reservedOp 1 []) ∧
    decode rig ⟨.op, [0b00001110, 0x12]⟩ = .ok (.reservedOp 2 [0x12]) ∧
    decode rig ⟨.op, [0b00001111]⟩ = .ok (.reservedOp 3 []) := by decide
theorem test_decode_tx_rows :
    decode rig ⟨.tx, [0b11111110, 0b11111110, 0x94, 0, 0b00000011, 0b11111101]⟩ = .ok .rdfreq ∧
    decode rig ⟨.tx, [0b11111110, 0b11111110, 0x94, 0, 0b00000100, 0b11111101]⟩ = .ok .rdmode ∧
    decode rig ⟨.tx, [0b11111110, 0b11111110, 0x94, 0, 0b00011000, 0b00000001, 0b11111101]⟩ = .ok .pwron ∧
    decode rig ⟨.tx, [0b11111110, 0b11111110, 0x94, 0, 0b00011000, 0b00000000, 0b11111101]⟩ = .ok .pwroff ∧
    decode rig ⟨.tx, [0b11111110, 0b11111110, 0x94, 0, 0b00010101, 0b00010101, 0b11111101]⟩ = .ok .rdvolt ∧
    decode rig ⟨.tx, [0b11111110, 0b11111110, 0x94, 0, 0b00100111, 0b00010000, 1, 0b11111101]⟩ = .ok .scopedispOn ∧
    decode rig ⟨.tx, [0b11111110, 0b11111110, 0x94, 0, 0b00100111, 0b00010000, 0, 0b11111101]⟩ = .ok .scopedispOff ∧
    decode rig ⟨.tx, [0b11111110, 0b11111110, 0x94, 0, 0b00100111, 0b00010001, 1, 0b11111101]⟩ = .ok .scopeoutOn ∧
    decode rig ⟨.tx, [0b11111110, 0b11111110, 0x94, 0, 0b00100111, 0b00010001, 0, 0b11111101]⟩ = .ok .scopeoutOff ∧
    decode rig ⟨.tx, [0b11111110, 0b11111110, 0x94, 0, 0b00100111, 0b00000000, 0b11111101]⟩ = .ok .rdscope ∧
    decode rig ⟨.tx, [0b11111110, 0b11111110, 0x86, 0, 0b00000101, 0x45, 0b11111101]⟩ =
      .ok (.txframeGeneric 0x86 [0x05, 0x45]) := by decide
theorem test_decode_rx_rows :
    decode rig ⟨.rx, [0xFE, 0xFE, 0, 0x94, 0b00000011, 0x45, 0xFD]⟩ = .ok (.rxFreq 0x94 [0x45]) ∧
    decode rig ⟨.rx, [0xFE, 0xFE, 0, 0x94, 0b00000100, 0x01, 0xFD]⟩ = .ok (.rxMode 0x94 [0x01]) ∧
    decode rig ⟨.rx, [0xFE, 0xFE, 0, 0x94, 0b00011000, 1, 0xFD]⟩ = .ok (.rxPwron 0x94 []) ∧
    decode rig ⟨.rx, [0xFE, 0xFE, 0, 0x94, 0b00011000, 0, 0xFD]⟩ = .ok (.rxPwroff 0x94 []) ∧
    decode rig ⟨.rx, [0xFE, 0xFE, 0, 0x94, 0b00010101, 0b00010101, 0x32, 0xFD]⟩ = .ok (.rxVolt 0x94 [0x32]) ∧
    decode rig ⟨.rx, [0xFE, 0xFE, 0, 0xE0, 0b00100111, 0b00010000, 1, 0xFD]⟩ = .ok (.rxScopedispOn 0xE0 []) ∧
    decode rig ⟨.rx, [0xFE, 0xFE, 0, 0xE0, 0b00100111, 0b00010000, 0, 0xFD]⟩ = .ok (.rxScopedispOff 0xE0 []) ∧
    decode rig ⟨.rx, [0xFE, 0xFE, 0, 0xE0, 0b00100111, 0b00010001, 1, 0xFD]⟩ = .ok (.rxScopeoutOn 0xE0 []) ∧
    decode rig ⟨.rx, [0xFE, 0xFE, 0, 0xE0, 0b00100111, 0b00010001, 0, 0xFD]⟩ = .ok (.rxScopeoutOff 0xE0 []) := by decide
theorem test_decode_rx_scope_rows :
    decode rig ⟨.rx, [0xFE, 0xFE, 0, 0x94, 0b00100111, 0, 0xFD]⟩ = .ok (.rxScope ⟨0x94, []⟩) ∧
    decode rig ⟨.rx, [0xFE, 0xFE, 0, 0x94, 0b00100111, 0, 0b00000001, 0xAA, 0xFD]⟩ = .ok (.rxScopeFirst 0x94 ⟨[], [0xAA]⟩) ∧
    decode rig ⟨.rx, [0xFE, 0xFE, 0, 0x94, 0b00100111, 0, 0b00010001, 0xAA, 0xFD]⟩ = .ok (.rxScopeLast 0x94 ⟨[], [0xAA]⟩) ∧
    decode rig ⟨.rx, [0xFE, 0xFE, 0, 0x94, 0b00100111, 0, 0b00010000, 0xAA, 0xFD]⟩ = .ok (.rxScopeMid 0x94 0x10 ⟨[], [0xAA]⟩) ∧
    decode rig ⟨.rx, [0xFE, 0xFE, 0, 0x94, 0b00100111, 0b00010000, 0xFD]⟩ = .ok (.rxUnknown 0x94 0x27 [0x10]) := by decide
/-- R111, R96: a catalog path to an address other than `RIG_ADDR` is a generic frame; the sub-marker at offset 2. -/
theorem test_decode_reading :
    decode rig ⟨.tx, [0xFE, 0xFE, 0x86, 0, 0b00000011, 0xFD]⟩ = .ok (.txframeGeneric 0x86 [0x03]) ∧
    decode rigLate ⟨.rx, [0xFE, 0xFE, 0, 0x94, 0b00100111, 0, 0x11, 0xAA, 0b00000001, 0xBB, 0xFD]⟩ =
      .ok (.rxScopeFirst 0x94 ⟨[0x11, 0xAA], [0xBB]⟩) ∧
    decode rigLate ⟨.rx, [0xFE, 0xFE, 0, 0x94, 0b00100111, 0, 0x01, 0xAA, 0b00010001, 0xFD]⟩ =
      .ok (.rxScopeLast 0x94 ⟨[0x01, 0xAA], []⟩) ∧
    decode rigLate ⟨.rx, [0xFE, 0xFE, 0, 0x94, 0b00100111, 0, 0x01, 0xAA, 0xFD]⟩ =
      .ok (.rxScope ⟨0x94, [0x01, 0xAA]⟩) := by decide
theorem test_decode_refuses :
    decode rig ⟨.op, []⟩ = .error .emptyImage ∧ decode rig ⟨.op, [0x10]⟩ = .error .opWidth ∧
    decode rig ⟨.op, [0x03]⟩ = .error .missingOperand ∧ decode rig ⟨.op, [0x08, 2]⟩ = .error .badSequenceMark ∧
    decode rig ⟨.op, [0x00, 0]⟩ = .error .trailingBytes ∧ decode rig ⟨.tx, [0xFE, 0x12, 0, 0, 3, 0xFD]⟩ = .error .noPreamble ∧
    decode rig ⟨.tx, [0xFE, 0xFE, 0x94, 0x00, 0x03]⟩ = .error .noPostambleAtEnd ∧
    decode rig ⟨.tx, [0xFE, 0xFE, 0x94, 0x01, 0x03, 0xFD]⟩ = .error .wrongHostAddress ∧
    decode rig ⟨.rx, [0xFE, 0xFE, 0xE0, 0x94, 0x03, 0xFD]⟩ = .error .wrongHostAddress ∧
    decode rig ⟨.rx, [0xFE, 0xFE, 0x00, 0x94, 0xFD]⟩ = .error .emptyBody ∧
    decode rig ⟨.rx, [0xFE, 0xFE, 0x00, 0x94, 0x03, 0xFD, 0xFD]⟩ = .error .earlyPostamble := by decide
theorem test_decode_too_long :
    decode rig ⟨.tx, [0xFE, 0xFE, 0x94, 0x00] ++ List.replicate 54 0x01 ++ [0xFD]⟩ = .error .bodyTooLong := by decide

theorem test_table_words :
    decodeTableWord 8 0x3 = some (.rxByte 0) ∧ decodeTableWord 8 0xC = some (.reservedOp 0 []) ∧
    decodeTableWord 48 0xFEFE940003FD = some .rdfreq ∧ decodeTableWord 32 0xFEFE9400 = some (.txframeGeneric 0x94 [0]) ∧
    decodeTableWord 40 0xFEFE009404 = some (.rxMode 0x94 []) ∧
    decodeTableWord 56 0xFEFE0094270011 = some (.rxScopeLast 0x94 ⟨[], []⟩) ∧
    decodeTableWord 24 0xFEFE00 = some (.rxUnknown 0 0 []) := by decide
/-- The word placed by `withFetchWord` is the one the next step runs. -/
theorem test_fetch_word :
    step (State.reset.withFetchWord 48 0xFEFE940003FD) = exec .rdfreq State.reset ∧
    step (tuned.withFetchWord 48 0xFEFE000003FD) = exec .rdfreq tuned ∧
    step (State.reset.withFetchWord 8 0x4) = exec .rxFlush State.reset := ⟨rfl, rfl, rfl⟩
/-- R105: receive bytes that are no whole frame are received; R13: a port image that names no operation does nothing. -/
theorem test_unnamed :
    step { State.reset with port := [⟨.rx, [0x12, 0xFE, 0xFE, 0x00, 0x94]⟩] } =
      .next { collecting [0x00, 0x94] with result := .frames [] } ∧
    step { tuned with port := [⟨.op, [0x10]⟩] } = .next tuned := ⟨rfl, rfl⟩

/-! ### Profile, reserved codes, reset (CFG-1, CFG-4 to CFG-7, E-1, E-2) -/

theorem test_profile_known :
    tuned.cfg.rigAddr = 0x94 ∧ tuned.cfg.maxBaud = 115200 ∧ tuned.cfg.profileSel = 1 ∧ tuned.err = 0 ∧
    tuned.result = .profile 0x94 115200 true := by decide
theorem test_profile_unknown_is_sticky :
    let s := after (.cfgProfile [0x69, 0x63, 0x2D, 0x37, 0x33, 0x30, 0x30]) tuned
    s.cfg.rigAddr = 0x00 ∧ s.cfg.profileSel = 0 ∧ s.err = 1 ∧ s.result = .profile 0x00 19200 false ∧
    (after (.cfgProfile [0x49, 0x44, 0x2D, 0x35, 0x31]) s).err = 1 := by decide
/-- R122, I27: another table; the last two rows share a name. -/
theorem test_profile_table :
    let table : List Config.ProfileRow :=
      [{ modelName := [0x41], sel := 1, busAddress := 0xA2, maxBaudRate := 9600 },
       { modelName := [0x42], sel := 2, busAddress := 0xA4, maxBaudRate := 4800 },
       { modelName := [0x42], sel := 3, busAddress := 0xA6, maxBaudRate := 2400 }]
    let s := { State.reset with params := { defaultParams with profiles := table } }
    (after (.cfgProfile [0x42]) s).result = .profile 0xA4 4800 true ∧ (after (.cfgProfile [0x42]) s).cfg.profileSel = 2 ∧
    (after (.cfgProfile [0x49, 0x44, 0x2D, 0x35, 0x31]) s).result = .profile 0x00 19200 false := by decide
theorem test_reserved_code :
    (after (.reservedOp 3 [0x12]) (accumulating [1])).err = 0b10000 ∧
    (after (.reservedOp 3 [0x12]) (accumulating [1])).result = .refused ∧
    (after (.reservedOp 3 [0x12]) (accumulating [1])).sc = (accumulating [1]).sc := by decide
theorem test_reset :
    after .reset { accumulating [1] with err := 0b11111, tx := [0xFE], scan := { rxs := .body, rxbuf := [0, 0x94] } } =
      State.reset := by decide

/-! ### Transmit (TX-1 to TX-17) -/

theorem test_tx_catalog :
    (after .rdfreq tuned).tx = [0xFE, 0xFE, 0x94, 0x00, 0x03, 0xFD] ∧
    (after .rdmode tuned).tx = [0xFE, 0xFE, 0x94, 0x00, 0x04, 0xFD] ∧
    (after .pwron tuned).tx = [0xFE, 0xFE, 0x94, 0x00, 0x18, 0x01, 0xFD] ∧
    (after .pwroff tuned).tx = [0xFE, 0xFE, 0x94, 0x00, 0x18, 0x00, 0xFD] ∧
    (after .rdvolt tuned).tx = [0xFE, 0xFE, 0x94, 0x00, 0x15, 0x15, 0xFD] ∧
    (after .scopedispOn tuned).tx = [0xFE, 0xFE, 0x94, 0x00, 0x27, 0x10, 0x01, 0xFD] ∧
    (after .scopedispOff tuned).tx = [0xFE, 0xFE, 0x94, 0x00, 0x27, 0x10, 0x00, 0xFD] ∧
    (after .scopeoutOn tuned).tx = [0xFE, 0xFE, 0x94, 0x00, 0x27, 0x11, 0x01, 0xFD] ∧
    (after .scopeoutOff tuned).tx = [0xFE, 0xFE, 0x94, 0x00, 0x27, 0x11, 0x00, 0xFD] ∧
    (after .rdscope tuned).tx = [0xFE, 0xFE, 0x94, 0x00, 0x27, 0x00, 0xFD] := by decide
theorem test_tx_catalog_default_profile :
    (after .rdfreq State.reset).tx = [0xFE, 0xFE, 0x00, 0x00, 0x03, 0xFD] := by decide
theorem test_tx_encode :
    (after (.txEncode 0x94 [0x05] [0x12, 0xFD, 0x34]) { tuned with tx := [0x77] }).tx =
      [0x77, 0xFE, 0xFE, 0x94, 0x00, 0x05, 0x12, 0xFD, 0x34, 0xFD] := by decide
theorem test_tx_encode_refused :
    (after (.txEncode 0x94 [] []) tuned).err = 0b00010 ∧
    (after (.txEncode 0x94 [0x27, 0x10, 0x01, 0x00] []) tuned).result = .refused ∧
    (after (.txEncode 0x94 [0x03] (List.replicate 51 0)) tuned).tx = [] ∧
    (after (.txEncode 0x94 [0x27, 0x10, 0x01] (List.replicate 50 0xAA)) tuned).tx.length = 58 := by decide
theorem test_tx_generic :
    (after (.txframeGeneric 0x86 [0x05, 0x00, 0x00, 0x00, 0x45, 0x01]) State.reset).tx =
      [0xFE, 0xFE, 0x86, 0x00, 0x05, 0x00, 0x00, 0x00, 0x45, 0x01, 0xFD] := by decide

/-! ### Receive (R151 to R162, RX-4 to RX-21) -/

theorem test_rx_byte_states :
    (after (.rxByte 0xFE) State.reset).scan.rxs = .pre1 ∧ (after (.rxByte 0x12) (scanning .pre1)).scan.rxs = .hunt ∧
    (after (.rxByte 0xFE) (scanning .dst)).scan.rxs = .dst ∧ (after (.rxByte 0x94) (scanning .dst)).scan.rxs = .hunt ∧
    (after (.rxByte 0x00) (scanning .dst)).scan = { rxs := .body, rxbuf := [0x00] } ∧
    (after (.rxByte 0xFE) (collecting [0x00])).scan.rxbuf = [0x00, 0xFE] := by decide
theorem test_rx_byte_frame :
    (after (.rxByte 0xFD) (collecting [0x00, 0x94, 0x04, 0x01, 0x01])).result =
      .frame { dst := 0, src := 0x94, echo := false, cmd := [0x04], payload := [1, 1], known := true, scope := none } ∧
    (after (.rxByte 0xFD) (collecting [0x00, 0x94])).result = .none ∧
    (after (.rxByte 0xFD) (collecting [0x00, 0x94])).scan.rxs = .hunt := by decide
theorem test_rx_overrun_boundary :
    (after (.rxByte 0x11) (capped 61)).err = 0 ∧ (after (.rxByte 0x11) (capped 61)).scan.rxbuf.length = 64 ∧
    (after (.rxByte 0x11) (capped 62)).err = 0b00100 ∧ (after (.rxByte 0x11) (capped 62)).scan.rxs = .hunt ∧
    (after (.rxByte 0xFE) (capped 62)).scan.rxs = .pre1 ∧ (after (.rxByte 0xFD) (capped 62)).err = 0 := by decide
theorem test_rx_flush :
    (after .rxFlush (collecting [0x00, 0x94, 0x03])).scan = { rxs := .hunt, rxbuf := [] } := by decide
/-- RX-8: an echo. -/
theorem test_rx_echo :
    (after (.rxFreq 0x00 []) State.reset).result =
      .frames [{ dst := 0, src := 0, echo := true, cmd := [0x03], payload := [], known := true, scope := none }] := by
  decide
/-- RX-1, RX-12, RX-13, RX-17. -/
theorem test_rx_rows :
    (after (.rxFreq 0x94 [0, 0, 0, 0x45, 1]) State.reset).result =
      .frames [plainRecord 0x94 [0x03] [0, 0, 0, 0x45, 1]] ∧
    (after (.rxPwron 0x94 []) State.reset).result = .frames [plainRecord 0x94 [0x18, 0x01] []] ∧
    (after (.rxVolt 0x94 [1, 0x32]) State.reset).result = .frames [plainRecord 0x94 [0x15, 0x15] [1, 0x32]] ∧
    (after (.rxScopeoutOn 0xE0 []) State.reset).result = .frames [plainRecord 0xE0 [0x27, 0x11, 0x01] []] := by decide
theorem test_rx_rows_more :
    (after (.rxMode 0x94 [1, 1]) State.reset).result = .frames [plainRecord 0x94 [0x04] [1, 1]] ∧
    (after (.rxPwroff 0x94 []) State.reset).result = .frames [plainRecord 0x94 [0x18, 0x00] []] ∧
    (after (.rxScopedispOn 0x94 []) State.reset).result = .frames [plainRecord 0x94 [0x27, 0x10, 0x01] []] ∧
    (after (.rxScopedispOff 0x94 []) State.reset).result = .frames [plainRecord 0x94 [0x27, 0x10, 0x00] []] ∧
    (after (.rxScopeoutOff 0x94 []) State.reset).result = .frames [plainRecord 0x94 [0x27, 0x11, 0x00] []] := by decide
/-- RX-11. -/
theorem test_rx_unknown :
    (after (.rxUnknown 0x94 0x27 [0x10]) State.reset).result =
      .frames [{ dst := 0, src := 0x94, echo := false, cmd := [0x27], payload := [0x10], known := false,
                 scope := none }] := by decide
/-- RX-2: leading garbage, a triple `FE`, two frames. -/
theorem test_scan_two_frames :
    scan defaultParams
      [0x12, 0x34, 0xFE, 0xFE, 0xFE, 0x00, 0x94, 0x03, 0x45, 0xFD, 0xFE, 0xFE, 0x00, 0x94, 0x04, 0x01, 0x01, 0xFD] =
      [plainRecord 0x94 [0x03] [0x45], plainRecord 0x94 [0x04] [0x01, 0x01]] := by decide
/-- RX-10 and RX-18: a truncated frame swallows the next; framing is byte-aligned. -/
theorem test_scan_swallow_and_alignment :
    scan defaultParams [0xFE, 0xFE, 0x00, 0x94, 0x03, 0x00, 0xFE, 0xFE, 0x00, 0x94, 0x04, 0x01, 0xFD] =
      [plainRecord 0x94 [0x03] [0x00, 0xFE, 0xFE, 0x00, 0x94, 0x04, 0x01]] ∧
    scan defaultParams [0x0F, 0xEF, 0xE0, 0x00, 0x94, 0x03, 0xFD] = [] := by decide

/-! ### The reassembler (SC-1 to SC-22) -/

theorem test_sc_req :
    (after (.scReq 15) completed).sc = (awaiting 15 0).sc ∧ (after (.scReq 15) completed).result = .ok := by decide
theorem test_sc_req_busy :
    (after (.scReq 15) (accumulating [1])).err = 0b01000 ∧
    (after (.scReq 15) (accumulating [1])).sc = (accumulating [1]).sc := by decide
theorem test_sc_attempt_last_two :
    (after .scAttempt (awaiting 15 13)).sc.attCount = 14 ∧ (after .scAttempt (awaiting 15 13)).result = .session .none ∧
    (after .scAttempt (awaiting 15 14)).sc.attCount = 15 ∧ (after .scAttempt (awaiting 15 14)).sc.scState = .idle ∧
    (after .scAttempt (awaiting 15 14)).result = .session .incomplete := by decide
theorem test_sc_attempt_budget_0 :
    (after .scAttempt (awaiting 0 0)).sc.attCount = 1 ∧ (after .scAttempt (awaiting 0 0)).sc.scState = .idle := by decide
theorem test_sc_abort :
    (after .scAbort (accumulating [1])).sc.scResult = .aborted ∧ (after .scAbort (accumulating [1])).sc.acc = [] ∧
    (after .scAbort (accumulating [1])).sc.centerHz = 0 ∧ (after .scAbort completed).sc.scResult = .none := by decide
/-- SC-3. -/
theorem test_scope_header :
    (after (.rxScopeFirst 0x94 ⟨[], headerPayload⟩) (awaiting 15 0)).sc =
      { (awaiting 15 0).sc with scState := .accumulating, centerHz := 145000000, spanHz := 2500, acc := [0xAA] } := by
  decide
/-- R96: the header with the sub-marker at offset 2 and the payload from offset 4 on. -/
theorem test_scope_header_offsets :
    (after (.rxScopeFirst 0x94 ⟨[0x11, 0x77], 0x88 :: headerPayload⟩) (late (awaiting 15 0))).sc =
      (after (.rxScopeFirst 0x94 ⟨[], headerPayload⟩) (awaiting 15 0)).sc := by decide
/-- SC-2 and SC-20: ignored in `Idle`, and as an echo. -/
theorem test_scope_header_ignored :
    (after (.rxScopeFirst 0x94 ⟨[], headerPayload⟩) State.reset).sc = Reassembler.reset ∧
    (after (.rxScopeFirst 0x94 ⟨[], headerPayload⟩) State.reset).result = .frames [scopeRecord 0x94 (0x01 :: headerPayload) 0x01 headerPayload] ∧
    (after (.rxScopeFirst 0x00 ⟨[], headerPayload⟩) (awaiting 15 0)).sc = (awaiting 15 0).sc := by decide
/-- SC-7 in small, and SC-8: a second header is appended whole. -/
theorem test_scope_intermediate :
    (after (.rxScopeMid 0x94 0x07 ⟨[], [2, 3]⟩) (accumulating [1])).sc.acc = [1, 2, 3] ∧
    (after (.rxScopeFirst 0x94 ⟨[], headerPayload⟩) (accumulating [0xAA])).sc.acc = 0xAA :: headerPayload ∧
    (after (.rxScopeFirst 0x94 ⟨[], headerPayload⟩) (accumulating [0xAA])).sc.centerHz = 145000000 := by decide
/-- SC-4: not the first marker. -/
theorem test_scope_mid_ignored :
    (after (.rxScopeMid 0x94 0x02 ⟨[], [0xAA]⟩) (awaiting 15 0)).sc = (awaiting 15 0).sc ∧
    (after (.rxScopeLast 0x94 ⟨[], [0xAA]⟩) (awaiting 15 0)).sc = (awaiting 15 0).sc := by decide
/-- SC-12 and SC-10: a wrong total. -/
theorem test_scope_decode_fail :
    (after (.rxScopeLast 0x94 ⟨[], []⟩) (accumulating [])).sc.scResult = .decodeFail ∧
    (after (.rxScopeLast 0x94 ⟨[], []⟩) (accumulating [])).sc.scState = .complete ∧
    (after (.rxScopeLast 0x94 ⟨[], [9]⟩) (accumulating [1])).sc.centerHz = 145000000 := by decide
/-- SC-9: 430 and 45 bytes. -/
theorem test_scope_complete :
    scComplete (List.replicate 430 1 ++ List.replicate 45 2) (accumulating []).sc =
      { (accumulating []).sc with scState := .complete, scResult := .ok, ampLen := 475,
                                  amp := Memory.fill (List.replicate 430 1 ++ List.replicate 45 2) } :=
  if_pos (by rw [List.length_append, List.length_replicate, List.length_replicate])
/-- SC-21. -/
theorem test_scope_without_marker :
    (after (.rxScope ⟨0x94, []⟩) (awaiting 15 0)).result = .frames [plainRecord 0x94 [0x27, 0x00] []] ∧
    (after (.rxScope ⟨0x94, []⟩) (awaiting 15 0)).sc = (awaiting 15 0).sc := by decide

/-! ### The decoders (F-1 to F-11, SP-1 to SP-11, V-1 to V-11, 2.8) -/

theorem test_dec_freq :
    (after (.decFreq [0x00, 0x60, 0x09, 0x30, 0x00]) State.reset).result = .freqHz 30096000 ∧
    (after (.decFreq [0x99, 0x99, 0x99, 0x99, 0x99]) State.reset).result = .freqHz 9999999999 ∧
    (after (.decFreq [0x10, 0x00, 0x00, 0x00, 0x00]) State.reset).result = .freqHz 10 := by decide
theorem test_dec_freq_sentinel :
    (after (.decFreq [0x00, 0x00, 0x0A, 0x00, 0x00]) State.reset).result = .freqHz 0 ∧
    (after (.decFreq [0x00, 0x00, 0x00, 0x45]) State.reset).result = .freqHz 0 := by decide
theorem test_dec_span :
    (after (.decSpan [0x00, 0x12, 0x34, 0x56, 0x00, 0x00]) State.reset).result = .spanHz 341200 ∧
    (after (.decSpan [0xFF, 0x50, 0x02, 0xFF, 0xFF, 0xFF]) State.reset).result = .spanHz 25000 := by decide
theorem test_dec_span_sentinel :
    (after (.decSpan [0x00, 0x2A, 0x00, 0x00, 0x00, 0x00]) State.reset).result = .spanHz 0 ∧
    (after (.decSpan [0x00, 0x25, 0x00, 0x00, 0x00]) State.reset).result = .spanHz 0 := by decide
theorem test_dec_volt :
    decodeVolts 0 = 0 ∧ decodeVolts 13 = 10 ∧ decodeVolts 14 = 197 / 19 ∧ decodeVolts 255 = 635 / 38 := by
  norm_num [decodeVolts, voltRawOk, voltsInRange, voltKnee]
theorem test_dec_volt_out_of_range :
    (after (.decVolt 256) State.reset).result = .volts 0 false ∧
    (after (.decVolt (-1)) State.reset).result = .volts 0 false := by decide
theorem test_dec_mode :
    (after (.decMode 1) State.reset).result = .mode 1 .usb ∧ (after (.decMode 17) State.reset).result = .mode 17 .dv ∧
    (after (.decMode 16) State.reset).result = .mode 16 .na ∧ (after (.decMode 18) State.reset).result = .mode 9 .na ∧
    (after (.decMode 99) State.reset).result = .mode 9 .na ∧ (after (.decMode 6) State.reset).result = .mode 6 .reserved := by
  decide

/-! ### Text and extraction (R10, R236, R237) -/

theorem test_hex_text :
    hex [0xFE, 0x0A] = ['F', 'E', '0', 'A'] ∧ unhex ['f', 'E', '0', 'a'] = some [0xFE, 0x0A] ∧ unhex ['F'] = none ∧
    digit [0x25, 0x4A] 1 = some 5 ∧ digit [0x25, 0x4A] 2 = some 4 := by decide
theorem test_extract :
    modeExtractDefault [0x17, 0x01] = 17 ∧ modeExtractDefault [] = 255 ∧ modeExtractDefault [0x1A] = 255 ∧
    voltExtractDefault [0x01, 0x32] = 132 ∧ voltExtractDefault [0x01] = -1 := by decide
/-- Program P1, from the request on, with the request echoed by the bus. -/
theorem test_read_frequency :
    (readFrequencyHz { writeOk := true, reads := [[0xFE, 0xFE, 0x94, 0x00, 0x03, 0xFD],
        [0xFE, 0xFE, 0x00, 0x94, 0x03, 0x00, 0x00, 0x00, 0x45, 0x01, 0xFD]] } tuned).value =
      .value (.freqHz 145000000) := by decide
/-- R252: a transport failure is surfaced and sends nothing. -/
theorem test_transport_failure :
    (readFrequencyHz { writeOk := false, reads := [] } tuned).value = .transportFailure := by decide

/-! ### Witnesses: states and operands that meet the hypotheses of the statements -/

theorem witness_StepRunsDecoded :
    ({ State.reset with port := [⟨.op, [0x04]⟩] } : State).port = ⟨.op, [0x04]⟩ :: [] ∧
    decode State.reset.reading ⟨.op, [0x04]⟩ = .ok .rxFlush := by decide
theorem witness_StepIdleOrUndecodable :
    State.reset.port = [] ∧ ({ State.reset with port := [⟨.op, [0x10]⟩] } : State).port = ⟨.op, [0x10]⟩ :: [] ∧
    decode State.reset.reading ⟨.op, [0x10]⟩ = .error .opWidth ∧ (⟨.op, [0x10]⟩ : Transaction).lane ≠ .rx ∧
    ({ State.reset with port := [⟨.rx, [0xFE]⟩] } : State).port = ⟨.rx, [0xFE]⟩ :: [] ∧
    decode State.reset.reading ⟨.rx, [0xFE]⟩ = .error .noPreamble ∧ (⟨.rx, [0xFE]⟩ : Transaction).lane = .rx := by decide
theorem witness_DecodeOfEncode : (Instr.rxUnknown 0x94 0x27 [0x10]).wellFormed rig = true := by decide
theorem witness_EncodeOfDecode : decode rig ⟨.tx, [0xFE, 0xFE, 0x94, 0x00, 0x03, 0xFD]⟩ = .ok .rdfreq := by decide
theorem witness_DecodedIsWellFormed : decode rig ⟨.rx, [0xFE, 0xFE, 0, 0x94, 0x05, 0xFD]⟩ = .ok (.rxUnknown 0x94 0x05 []) := by
  decide
theorem witness_legal :
    ({ rxbufCap := some 64, scopeSubOff := 1, scopeDataOff := 3, profiles := [] } : Config.Params).legal = true ∧
    defaultParams.legal = true := by decide
/-- The invariant holds of a state with a session accumulating and a queue of one operation. -/
theorem witness_invariant : BlockInv { accumulating [1, 2] with port := [⟨.op, [0x06]⟩] } where
  params := by decide
  host := rfl
  config := .inl ⟨rfl, rfl, rfl⟩
  scanner := ⟨fun _ => rfl, nofun, nofun, nofun, nofun⟩
  reassembler := ⟨nofun, nofun, fun _ => ⟨rfl, rfl⟩, nofun, fun _ => by decide, by decide⟩
  amp := ⟨rfl, rfl, .inl rfl⟩
  fields := ⟨by decide, by decide⟩
theorem witness_StepKeepsInvariant :
    ∃ t, step { accumulating [1, 2] with port := [⟨.op, [0x06]⟩] } = .next t := ⟨_, rfl⟩
/-- The invariant holds of a state with a whole sweep. -/
theorem witness_AmpReadableBelowLength : BlockInv swept where
  params := by decide
  host := rfl
  config := .inl ⟨rfl, rfl, rfl⟩
  scanner := ⟨fun _ => rfl, nofun, nofun, nofun, nofun⟩
  reassembler := ⟨nofun, nofun, nofun, fun _ => ⟨rfl, .inl ⟨rfl, rfl⟩⟩, nofun, by decide⟩
  amp := ⟨Memory.fill_wf _ (le_of_eq List.length_replicate),
    (Memory.fill_indices _).trans (congrArg List.range List.length_replicate), .inr rfl⟩
  fields := ⟨by decide, by decide⟩
theorem witness_FlagsAreSticky :
    Instr.scReq 15 ≠ .reset ∧ ∃ t, exec (.scReq 15) (accumulating [1]) = .next t := ⟨nofun, _, rfl⟩
theorem witness_FlagsBlockNothing : ∃ t, exec (.rxByte 0xFD) (collecting [0x00, 0x94, 0x03]) = .next t := ⟨_, rfl⟩
/-- The last row of the default table, and the default table itself. -/
theorem witness_ProfileKnownName :
    State.reset.params.profiles = defaultParams.profiles ∧
    ∃ above row, State.reset.params.profiles = above ++ row :: [] ∧ ∀ r ∈ above, r.modelName ≠ row.modelName :=
  ⟨rfl, profileRom.take 2, ⟨[0x49, 0x43, 0x2D, 0x52, 0x36], 3, 0x7E, 19200⟩, rfl, by decide⟩
/-- `IC-9700`, the empty name, and `IC-7300` with a trailing space. -/
theorem witness_ProfileUnknownName :
    ∀ name ∈ ([[0x49, 0x43, 0x2D, 0x39, 0x37, 0x30, 0x30], [],
        [0x49, 0x43, 0x2D, 0x37, 0x33, 0x30, 0x30, 0x20]] : List ByteSeq),
      ∀ r ∈ State.reset.params.profiles, r.modelName ≠ name := by decide
theorem witness_ConfigWrittenOnlyByProfile :
    writesConfig (.txEncode 0x94 [] []) = false ∧ ∃ t, exec (.txEncode 0x94 [] []) tuned = .next t := ⟨rfl, _, rfl⟩
theorem witness_TxEncodeFrame :
    (∀ n ∈ [1, 3], 1 ≤ (List.replicate n (3 : Byte)).length ∧ (List.replicate n (3 : Byte)).length ≤ 3) ∧
    (List.replicate 50 (0 : Byte)).length ≤ 50 ∧ ([] : ByteSeq).length = 0 ∧ 3 < (List.replicate 4 (3 : Byte)).length ∧
    50 < (List.replicate 51 (0 : Byte)).length := by decide
theorem witness_CatalogFormsEmit : (Instr.rdscope, ([0x27, 0x00] : ByteSeq)) ∈ catalogRows := by decide
theorem witness_GenericFrameEmits :
    1 ≤ ([0x05] : ByteSeq).length ∧ (List.replicate 53 (1 : Byte)).length ≤ 53 ∧ ([] : ByteSeq).length = 0 ∧
    53 < (List.replicate 54 (1 : Byte)).length := by decide
theorem witness_GenericIsTxEncode :
    1 ≤ ([0x27, 0x10] : ByteSeq).length ∧ ([0x27, 0x10] : ByteSeq).length ≤ 3 ∧ ([0x05] : ByteSeq).length ≤ 50 := by
  decide
theorem witness_TransmitStreamGrows :
    writesTx (.rxByte 0xFE) = false ∧ Instr.rdfreq ≠ .reset ∧ (∃ t, exec (.rxByte 0xFE) tuned = .next t) ∧
    ∃ t, exec .rdfreq tuned = .next t := ⟨rfl, nofun, ⟨_, rfl⟩, ⟨_, rfl⟩⟩
/-- One state for each clause of the scanner table; a buffer of 63, 64 of capacity 64, and one too short to emit. -/
theorem witness_ScannerTable :
    State.reset.scan.rxs = .hunt ∧ (scanning .pre1).scan.rxs = .pre1 ∧ (scanning .dst).scan.rxs = .dst ∧
    (capped 61).scan.rxs = .body ∧ (∀ c, (capped 61).params.rxbufCap = some c → (capped 61).scan.rxbuf.length < c) ∧
    (capped 62).scan.rxs = .body ∧ (capped 62).params.rxbufCap = some (capped 62).scan.rxbuf.length ∧
    (collecting [0x00, 0x94]).scan.rxs = .body ∧ (collecting [0x00, 0x94]).scan.rxbuf.length < 3 :=
  ⟨rfl, rfl, rfl, rfl, fun c h => by cases h; decide, rfl, rfl, rfl, by decide⟩
theorem witness_AcceptedCandidate :
    (collecting [0x00, 0x94, 0x05]).scan = { rxs := .body, rxbuf := 0x00 :: 0x94 :: [0x05] } ∧ ([0x05] : ByteSeq) ≠ [] ∧
    ([0x03] : ByteSeq) ∈ knownPaths ∧ ([0x03] : ByteSeq) <+: [0x03, 0x45] ∧ ∀ K ∈ knownPaths, ¬ K <+: ([0x05] : ByteSeq) := by
  decide
theorem witness_ScopeDispatch :
    (collecting [0x00, 0x94, 0x27, 0x00, 0x01]).scan = { rxs := .body, rxbuf := 0x00 :: 0x94 :: 0x27 :: 0x00 :: [0x01] } ∧
    ([0x01] : ByteSeq)[State.reset.params.scopeSubOff]? = some 0x01 ∧
    ([] : ByteSeq).length ≤ State.reset.params.scopeSubOff ∧ ¬ ([0x27, 0x00] : ByteSeq) <+: [0x27, 0x10] := by decide
theorem witness_ScannerWrittenOnlyByReceive :
    writesScanner (.cfgProfile []) = false ∧ ∃ t, exec (.cfgProfile []) (collecting [0x00]) = .next t := ⟨rfl, _, rfl⟩
theorem witness_ReceivedRowIsItsBytes : (encode rig (.rxFreq 0x94 [0xFD])).lane = .rx := rfl
/-- A frame that fills a candidate buffer of 64 bytes exactly. -/
theorem witness_PlainFrameReceived :
    (Instr.rxFreq 0x94 (List.replicate 61 0x11), ([0x03] : ByteSeq)) ∈ plainRxRows 0x94 (List.replicate 61 0x11) ∧
    scannerClear { State.reset with params := (capped 0).params } ∧ (0xFD : Byte) ∉ 0x94 :: List.replicate 61 0x11 ∧
    fitsCap (capped 0).params.rxbufCap (2 + 1 + 61) :=
  ⟨by decide, rfl, by decide, fun c h => by cases h; decide⟩
theorem witness_UnknownFrameReceived :
    scannerClear State.reset ∧ (0xFD : Byte) ∉ [0x94, 0x27, 0x10] ∧
    (∀ K ∈ knownPaths, ¬ K <+: ([0x27, 0x10] : ByteSeq)) ∧ fitsCap State.reset.params.rxbufCap 4 :=
  ⟨rfl, by decide, by decide, nofun⟩
/-- Two frames, and a third cut after its source address. -/
theorem witness_ConcatenatedFrames :
    (∀ f ∈ ([(0x94, [0x03]), (0x94, [0x04, 0xFE, 0xFE])] : List (Byte × ByteSeq)), f.2 ≠ [] ∧ 0xFD ∉ f.1 :: f.2) ∧
    ([0xFE, 0xFE, 0x00, 0x94] : ByteSeq) ++ [0x05, 0xFD] = [0xFE, 0xFE, 0x00, 0x94] ++ [0x05] ++ [0xFD] ∧
    ([0x05, 0xFD] : ByteSeq) ≠ [] := by decide
theorem witness_ScannedFramesAreForHost :
    plainRecord 0x94 [0x03] [] ∈ scan defaultParams [0xFE, 0xFE, 0x00, 0x94, 0x03, 0xFD] := by decide
theorem witness_OwnFrameEchoed :
    (Instr.rdfreq, ([0x03] : ByteSeq)) ∈ catalogRows ∧ scannerClear State.reset ∧ State.reset.params.legal = true ∧
    State.reset.cfg.rigAddr = 0x00 ∧ scannerClear tuned ∧ tuned.params.legal = true ∧ tuned.cfg.rigAddr = 0x94 :=
  ⟨by decide, rfl, rfl, rfl, rfl, rfl, rfl⟩
theorem witness_ScReqArms : State.reset.sc.scState = .idle ∧ completed.sc.scState = .complete := by decide
theorem witness_ScReqBusyRefused :
    (awaiting 15 0).sc.scState = .awaitingHeader ∧ (accumulating []).sc.scState = .accumulating := by decide
/-- Two attempts before the budget, one before it, and the greatest budget and count. -/
theorem witness_ScAttemptCounts :
    State.reset.sc.scState = .idle ∧ (awaiting 15 13).sc.scState = .awaitingHeader ∧
    (awaiting 15 13).sc.attCount.toNat + 1 < (awaiting 15 13).sc.attBudget.toNat ∧
    (awaiting 15 14).sc.attBudget.toNat ≤ (awaiting 15 14).sc.attCount.toNat + 1 ∧
    (awaiting 255 255).sc.attBudget.toNat ≤ (awaiting 255 255).sc.attCount.toNat + 1 := by decide
theorem witness_ScAbortDiscards : (accumulating [1]).sc.scState = .accumulating ∧ swept.sc.scState = .complete :=
  ⟨rfl, rfl⟩
theorem witness_ScFrameTable :
    State.reset.sc.scState = .idle ∧ completed.sc.scState = .complete ∧ (awaiting 15 0).sc.scState = .awaitingHeader ∧
    (accumulating (List.replicate 430 1)).sc.scState = .accumulating ∧
    ((accumulating (List.replicate 430 1)).sc.acc ++ List.replicate 45 2).length = 475 ∧
    ((accumulating (List.replicate 430 1)).sc.acc ++ List.replicate 46 2).length ≠ 475 :=
  ⟨rfl, rfl, rfl, rfl, lengths 430 45, (lengths 430 46).trans_ne (by decide)⟩
theorem witness_ScopeFrameIgnored :
    (Instr.rxScopeLast 0x94 ⟨[], [0xAA]⟩, (0x11 : Byte)) ∈ scopeRxRows 0x94 0x02 ⟨[], [0xAA]⟩ ∧
    scannerClear (awaiting 15 0) ∧ ([] : ByteSeq).length = (awaiting 15 0).params.scopeSubOff ∧
    (0xFD : Byte) ∉ ([0x94, 0x11, 0xAA] : ByteSeq) ∧ fitsCap (awaiting 15 0).params.rxbufCap 6 ∧
    (awaiting 15 0).sc.scState = .awaitingHeader ∧ (0x11 : Byte) ≠ 0x01 ∧
    ([0x01, 0x01] : ByteSeq).length ≤ (late (awaiting 15 0)).params.scopeSubOff ∧ scannerClear (late (awaiting 15 0)) :=
  ⟨by decide, rfl, rfl, by decide, nofun, rfl, by decide, by decide, rfl⟩
theorem witness_HeaderFrameStarts :
    let s := late (awaiting 15 0)
    let R : ByteSeq := [0x11, 0x77] ++ 0x01 :: 0x88 :: headerPayload
    scannerClear s ∧ ([0x11, 0x77] : ByteSeq).length = s.params.scopeSubOff ∧
    headerPayload = R.drop s.params.scopeDataOff ∧ (0x94 : Byte) ≠ 0x00 ∧ (0xFD : Byte) ∉ 0x94 :: R ∧
    fitsCap s.params.rxbufCap (4 + R.length) ∧ s.sc.scState = .awaitingHeader :=
  ⟨rfl, rfl, rfl, by decide, by decide, nofun, rfl⟩
theorem witness_IntermediateFrameAppends :
    (Instr.rxScopeMid 0x94 0x10 ⟨[], [2]⟩, (0x10 : Byte)) ∈ scopeRxRows 0x94 0x10 ⟨[], [2]⟩ ∧
    (0x10 : Byte) ≠ 0x11 ∧ scannerClear (accumulating [1]) ∧
    ([] : ByteSeq).length = (accumulating [1]).params.scopeSubOff ∧
    [2] = ([] ++ 0x10 :: [2] : ByteSeq).drop (accumulating [1]).params.scopeDataOff ∧ (0xFD : Byte) ∉ ([0x94, 0x10, 2] : ByteSeq) ∧
    fitsCap (accumulating [1]).params.rxbufCap 6 ∧ (accumulating [1]).sc.scState = .accumulating :=
  ⟨by decide, by decide, rfl, rfl, rfl, by decide, nofun, rfl⟩
/-- Totals of 475, 474 and 950 bytes. -/
theorem witness_TerminalFrameCompletes :
    let s := accumulating (List.replicate 430 1)
    scannerClear s ∧ ([] : ByteSeq).length = s.params.scopeSubOff ∧
    List.replicate 45 2 = ([] ++ 0x11 :: List.replicate 45 2 : ByteSeq).drop s.params.scopeDataOff ∧
    (0xFD : Byte) ∉ 0x94 :: 0x11 :: List.replicate 45 2 ∧ fitsCap s.params.rxbufCap (4 + 46) ∧ s.sc.scState = .accumulating ∧
    (s.sc.acc ++ List.replicate 45 2).length = 475 ∧ (s.sc.acc ++ List.replicate 44 2).length ≠ 475 ∧
    ((accumulating (List.replicate 905 1)).sc.acc ++ List.replicate 45 2).length ≠ 475 :=
  ⟨rfl, rfl, rfl, by decide, nofun, rfl, lengths 430 45, (lengths 430 44).trans_ne (by decide),
    (lengths 905 45).trans_ne (by decide)⟩
theorem witness_ReassemblerWrittenOnlyByScope :
    writesReassembler .rxFlush = false ∧ (∃ t, exec .rxFlush (accumulating [1]) = .next t) ∧
    ∃ t, exec (.rxByte 0xFE) (accumulating [1]) = .next t ∧ ∀ r : FrameRecord, t.result = .frame r → r.scope = none :=
  ⟨rfl, ⟨_, rfl⟩, _, rfl, nofun⟩
theorem witness_BudgetEndsSession :
    (∀ i ∈ [Instr.scAttempt, .rxFlush, .scAttempt], isRequest i = false) ∧
    max (awaiting 2 0).sc.attBudget.toNat 1 ≤ [Instr.scAttempt, .rxFlush, .scAttempt].count .scAttempt := by decide
theorem witness_FrequencyDecoded :
    ([0x45] : ByteSeq).length ≠ 5 ∧
    (∃ b ∈ ([0x00, 0x00, 0x0A, 0x00, 0x00] : ByteSeq), 9 < b.toNat / 16 ∨ 9 < b.toNat % 16) ∧
    ∀ b ∈ ([0x99, 0x99, 0x99, 0x99, 0x99] : ByteSeq), b.toNat / 16 ≤ 9 ∧ b.toNat % 16 ≤ 9 := by decide
theorem witness_FrequencyRoundTrip : 9999999999 ≤ 9999999999 ∧ bcd5 145000000 = [0x00, 0x00, 0x00, 0x45, 0x01] := by
  decide
theorem witness_SpanDecoded :
    ([] : ByteSeq).length ≠ 6 ∧ 9 < (0x2A : Byte).toNat % 16 ∧ (0x99 : Byte).toNat / 16 ≤ 9 ∧ (0x99 : Byte).toNat % 16 ≤ 9 := by
  decide
theorem witness_SpanIsMultipleOf100 :
    ∃ t, exec (.decSpan [0, 0x99, 0x99, 0, 0, 0]) State.reset = .next t ∧ t.result = .spanHz 999900 := ⟨_, rfl, by decide⟩
theorem witness_VoltageDecoded :
    (-1 : BitVec 16).toInt < 0 ∧ 255 < (256 : BitVec 16).toInt ∧ 0 ≤ (13 : BitVec 16).toInt ∧
    (13 : BitVec 16).toInt < 14 ∧ 14 ≤ (14 : BitVec 16).toInt ∧ (255 : BitVec 16).toInt ≤ 255 ∧
    ∃ t, exec (.decVolt 0) State.reset = .next t ∧ t.result = .volts 0 true := ⟨by decide, by decide, by decide,
      by decide, by decide, by decide, _, rfl, by simp [decodeVolts, voltOkFlag, voltRawOk, voltsInRange, voltKnee]⟩
theorem witness_FrequencyReadBack :
    tuned.params.legal = true ∧ (0x94 : Byte) ≠ 0x00 ∧ (0x94 : Byte) ≠ 0xFD ∧ 145000000 ≤ 9999999999 := by decide
theorem witness_SilentLineGivesSentinels : ∀ r ∈ ([[], []] : List ByteSeq), r = [] := by decide
theorem witness_SpectrumReadEnds :
    (readSpectrum {} true { writeOk := true, reads := [] } State.reset).value ≠ .transportFailure := nofun
theorem witness_PowerCallsSendOneFrame : tuned.tx = [] := by decide

end Sys2Proof.Tests
end

section
/-! SUPPORT. The rules of one step (an empty queue, a transaction that decodes, one that does not), and what issuing
`RX.BYTE` for each byte of a run does: it receives the run, and only the result of the last operation shows. -/

namespace Sys2Proof.Machine

/-! ### One step, by what stands first on the queue -/

theorem step_of_port_nil {s : State} (hp : s.port = []) : step s = .next s := by
  simp only [step, hp]

theorem step_of_decode_ok {s : State} {t : Transaction} {rest : List Transaction} {i : Instr}
    (hp : s.port = t :: rest) (hd : decode s.reading t = .ok i) : step s = exec i (s.setPort rest) := by
  simp only [step, hp, hd]

theorem step_of_decode_error {s : State} {t : Transaction} {rest : List Transaction} {e : DecodeError}
    (hp : s.port = t :: rest) (hd : decode s.reading t = .error e) :
    step s = unnamedTransaction t (s.setPort rest) := by
  simp only [step, hp, hd]

/-- On the command port and on the transmit lane, bytes that name no operation do nothing (log 17). -/
theorem unnamedTransaction_of_not_rx {t : Transaction} (ht : t.lane ≠ .rx) (s : State) :
    unnamedTransaction t s = .next s := by
  unfold unnamedTransaction
  cases hl : t.lane with
  | op => rfl
  | tx => rfl
  | rx => exact absurd hl ht

theorem unnamedTransaction_of_rx {t : Transaction} (ht : t.lane = .rx) (s : State) :
    unnamedTransaction t s = receiveRun t.bytes s := by
  simp only [unnamedTransaction, ht]

/-! ### A run of `RX.BYTE` operations -/

@[simp] theorem State.setResult_setResult (s : State) (r r' : Result) :
    (s.setResult r).setResult r' = s.setResult r' := rfl

theorem exec_rxByte (x : Byte) (s : State) :
    exec (.rxByte x) s = .next ((rxByteOp x s).1.setResult (rxResult (rxByteOp x s).2)) := rfl

theorem receiveRun_eq (b : ByteSeq) (s : State) :
    receiveRun b s = .next ((receiveBytes b s).1.setResult (.frames (receiveBytes b s).2)) := rfl

/-- Two states with one transmit stream and one queue differ beside the registers in the result alone. -/
theorem State.beside_setResult {s u : State} (htx : s.tx = u.tx) (hport : s.port = u.port) (r : Result) :
    s.beside (u.setResult r) = s.setResult r := by
  simp only [State.beside, State.setResult, htx, hport]

/-- Receiving bytes does not look at the last result, and leaves it as it stands. -/
theorem receiveBytes_setResult (b : ByteSeq) (s : State) (r : Result) :
    receiveBytes b (s.setResult r) = ((receiveBytes b s).1.setResult r, (receiveBytes b s).2) := by
  have h := receiveBytes_beside b s (s.setResult r)
  rwa [State.beside_setResult rfl rfl, State.beside_setResult (by simp) (by simp)] at h

/-- Issuing `RX.BYTE` for each byte in order receives the run (R62, R163), in everything but the result. -/
theorem runAll_rxByte (b : ByteSeq) (s : State) :
    ∃ r : Result, runAll exec (b.map .rxByte) s = .next ((receiveBytes b s).1.setResult r) := by
  induction b generalizing s with
  | nil => exact ⟨s.result, rfl⟩
  | cons x xs ih =>
    obtain ⟨r, hr⟩ := ih ((rxByteOp x s).1.setResult (rxResult (rxByteOp x s).2))
    refine ⟨r, ?_⟩
    simp only [List.map_cons, runAll, exec_rxByte, hr, receiveBytes_setResult, State.setResult_setResult, receiveBytes]

/-! ### The statements about a step -/

/-- Settles O1, by the rule of a step whose oldest transaction decodes. -/
theorem stepRunsDecoded : Obligations.StepRunsDecoded :=
  fun _ _ _ _ hp hd => step_of_decode_ok hp hd

/-- Settles O2: one rule of a step for each clause; on the receive side, the run of the step and the run of the single
`RX.BYTE` operations reach the state of one `receiveBytes`. -/
theorem stepIdleOrUndecodable : Obligations.StepIdleOrUndecodable := by
  refine ⟨fun _ hp => step_of_port_nil hp, ?_, ?_⟩
  · intro s t rest e hp hd hlane
    exact (step_of_decode_error hp hd).trans (unnamedTransaction_of_not_rx hlane _)
  · intro s t rest e hp hd hlane
    have hstep : step s = receiveRun t.bytes (s.setPort rest) :=
      (step_of_decode_error hp hd).trans (unnamedTransaction_of_rx hlane _)
    obtain ⟨r, hrun⟩ := runAll_rxByte t.bytes (s.setPort rest)
    exact ⟨_, _, hstep.trans (receiveRun_eq _ _), hrun, rfl⟩

end Sys2Proof.Machine
end

section
/-! SUPPORT. What one operation can do, said once: `Effect` lists the changes an operation can make to the state, and
`exec_effect` says that every operation returns and makes one of them. The invariants and the frame statements below
are case splits on it. -/

namespace Sys2Proof.Machine

/-! ### Error events -/

theorem State.raise_err_of_flag {e : Event} {b : ErrBit} (h : eventFlag e = some b) (s : State) :
    (s.raise e).err = errSet b s.err := by
  simp only [State.raise_err, h]

theorem State.raise_sc_of_flag {e : Event} {b : ErrBit} (h : eventFlag e = some b) (s : State) :
    (s.raise e).sc = s.sc := by
  rw [State.raise_sc, raiseSc_of_flag h]

theorem errSet_errSet (b : ErrBit) (e : BitVec 5) : errSet b (errSet b e) = errSet b e := by
  simp [errSet, BitVec.or_assoc]

@[simp] theorem State.raiseIf_none (s : State) : s.raiseIf none = s := rfl

theorem State.raiseIf_decodeMismatch (s : State) {c : DecodeCause} (h : c ≠ .scopeLen) :
    s.raiseIf (some (.decodeMismatch c)) = s := s.raise_decodeMismatch h

/-! The four decoders raise at most a sentinel's event, whose whole effect is the result (R253). -/

@[simp] theorem State.raiseIf_freqCause (s : State) (B : ByteSeq) : s.raiseIf (freqCause B) = s := by
  unfold freqCause
  split
  · exact s.raiseIf_decodeMismatch nofun
  · split
    · rfl
    · exact s.raiseIf_decodeMismatch nofun

@[simp] theorem State.raiseIf_spanCause (s : State) (S : ByteSeq) : s.raiseIf (spanCause S) = s := by
  unfold spanCause
  split
  · exact s.raiseIf_decodeMismatch nofun
  · split
    · rfl
    · exact s.raiseIf_decodeMismatch nofun

@[simp] theorem State.raiseIf_voltCause (s : State) (raw : Int) : s.raiseIf (voltCause raw) = s := by
  unfold voltCause
  split
  · rfl
  · exact s.raiseIf_decodeMismatch nofun

@[simp] theorem State.raiseIf_modeCause (s : State) (code : BitVec 8) : s.raiseIf (modeCause code) = s := by
  unfold modeCause
  split
  · rfl
  · exact s.raiseIf_decodeMismatch nofun

/-! ### The effect of an operation -/

/-- What an operation can do to the state, but for its result: one constructor per way of changing it. A refusal
and a decoder's return leave open which operation it was. -/
inductive Effect (s : State) : Instr → State → Prop
  /-- `RESET` (R120). -/
  | reset : Effect s .reset (resetState s)
  /-- `CFG.PROFILE` with the name of a row (R121). -/
  | profile {name : ByteSeq} {row : Config.ProfileRow} (known : row ∈ s.params.profiles) :
      Effect s (.cfgProfile name) (s.setCfg (loadProfile row s.cfg))
  /-- `CFG.PROFILE` with an unknown name (R123, R254). -/
  | unknownProfile {name : ByteSeq} :
      Effect s (.cfgProfile name) ((s.setCfg (loadProfile defaultProfile s.cfg)).raise (.unknownConfig name))
  /-- A frame goes to the transmit stream (R130). -/
  | sent {i : Instr} (writes : writesTx i = true) (F : ByteSeq) : Effect s i (s.txPut F)
  /-- The operation is refused with an event that has a flag, and nothing else changes (R101, R131, R182). -/
  | refused {i : Instr} {e : Event} {b : ErrBit} (flag : eventFlag e = some b) : Effect s i (s.raise e)
  /-- `RX.BYTE` (R150). -/
  | byte (x : Byte) : Effect s (.rxByte x) (rxByteOp x s).1
  /-- The bytes of a received frame (R62, R111). -/
  | received {i : Instr} (row : i.format = .rx) (b : ByteSeq) : Effect s i (receiveBytes b s).1
  /-- `RX.FLUSH` (R162). -/
  | flushed : Effect s .rxFlush (s.setScan Scanner.reset)
  /-- `SC.REQ` outside a session (R181). -/
  | armed (budget : BitVec 8) : Effect s (.scReq budget) (s.setSc (scArm budget s.sc))
  /-- `SC.ATTEMPT` (R191). -/
  | counted : Effect s .scAttempt (s.setSc (scCount s.sc))
  /-- `SC.ABORT` (R193). -/
  | discarded : Effect s .scAbort (s.setSc (scDiscard s.sc))
  /-- A decoder returns a value and changes nothing (R196, R197, R220, R223). -/
  | decoded {i : Instr} : Effect s i s

theorem txEncodeOp_effect {i : Instr} (writes : writesTx i = true) (dst : Byte) (cmd payload : ByteSeq) (s : State) :
    ∃ t r, txEncodeOp dst cmd payload s = .next (t.setResult r) ∧ Effect s i t := by
  unfold txEncodeOp
  split
  · exact ⟨_, _, rfl, .sent writes _⟩
  · exact ⟨_, _, rfl, .refused rfl⟩

theorem catalogOp_effect {i : Instr} (writes : writesTx i = true) (k : CatalogCmd) (s : State) :
    ∃ t r, catalogOp k s = .next (t.setResult r) ∧ Effect s i t :=
  txEncodeOp_effect writes s.cfg.rigAddr (catalogPath k) [] s

theorem execCfgProfile_effect (name : ByteSeq) (s : State) :
    ∃ t r, execCfgProfile name s = .next (t.setResult r) ∧ Effect s (.cfgProfile name) t := by
  unfold execCfgProfile
  split
  · next row hrow => exact ⟨_, _, rfl, .profile (List.mem_of_find?_eq_some hrow)⟩
  · exact ⟨_, _, rfl, .unknownProfile⟩

theorem execScReq_effect (budget : BitVec 8) (s : State) :
    ∃ t r, execScReq budget s = .next (t.setResult r) ∧ Effect s (.scReq budget) t := by
  unfold execScReq
  split
  · exact ⟨_, _, rfl, .refused rfl⟩
  · exact ⟨_, _, rfl, .armed budget⟩

/-- Every operation in every state returns, and what it did is one of the effects (R250, R298). -/
theorem exec_effect (i : Instr) (s : State) : ∃ t r, exec i s = .next (t.setResult r) ∧ Effect s i t := by
  cases i with
  | reset => exact ⟨_, _, rfl, .reset⟩
  | cfgProfile name => exact execCfgProfile_effect name s
  | rxByte x => exact ⟨_, _, rfl, .byte x⟩
  | rxFlush => exact ⟨_, _, rfl, .flushed⟩
  | scReq budget => exact execScReq_effect budget s
  | scAttempt => exact ⟨_, _, rfl, .counted⟩
  | scAbort => exact ⟨_, _, rfl, .discarded⟩
  | decFreq bytes => exact ⟨s, _, by rw [exec, execDecFreq, State.raiseIf_freqCause]; rfl, .decoded⟩
  | decSpan bytes => exact ⟨s, _, by rw [exec, execDecSpan, State.raiseIf_spanCause]; rfl, .decoded⟩
  | decVolt raw => exact ⟨s, _, by rw [exec, execDecVolt, State.raiseIf_voltCause]; rfl, .decoded⟩
  | decMode code => exact ⟨s, _, by rw [exec, execDecMode, State.raiseIf_modeCause]; rfl, .decoded⟩
  | reservedOp => exact ⟨_, _, rfl, .refused rfl⟩
  | txEncode | txframeGeneric => exact txEncodeOp_effect rfl _ _ _ s
  | rdfreq => exact catalogOp_effect rfl .readFreq s
  | rdmode => exact catalogOp_effect rfl .readMode s
  | pwron => exact catalogOp_effect rfl .powerOn s
  | pwroff => exact catalogOp_effect rfl .powerOff s
  | rdvolt => exact catalogOp_effect rfl .readVolt s
  | scopedispOn => exact catalogOp_effect rfl .scopeDispOn s
  | scopedispOff => exact catalogOp_effect rfl .scopeDispOff s
  | scopeoutOn => exact catalogOp_effect rfl .scopeOutOn s
  | scopeoutOff => exact catalogOp_effect rfl .scopeOutOff s
  | rdscope => exact catalogOp_effect rfl .readScope s
  | rxFreq | rxMode | rxPwron | rxPwroff | rxVolt | rxScopedispOn | rxScopedispOff | rxScopeoutOn | rxScopeoutOff
    | rxScope | rxScopeFirst | rxScopeLast | rxScopeMid | rxUnknown => exact ⟨_, _, rfl, .received rfl _⟩

/-- The next state of an operation is an effect with a result put beside it. -/
theorem effect_of_exec {i : Instr} {s t : State} (h : exec i s = .next t) :
    ∃ u r, t = u.setResult r ∧ Effect s i u := by
  obtain ⟨u, r, hu, heff⟩ := exec_effect i s
  exact ⟨u, r, Host.Outcome.next.inj (h.symm.trans hu), heff⟩

/-! ### What an operation leaves alone -/

theorem writesScanner_of_format_rx {i : Instr} (h : i.format = .rx) : writesScanner i = true := by
  unfold writesScanner
  split <;> simp [h]

theorem Effect.cfg_eq {s t : State} {i : Instr} (h : Effect s i t) (hi : writesConfig i = false) : t.cfg = s.cfg := by
  cases h with
  | reset | profile | unknownProfile => exact absurd hi nofun
  | sent | flushed | armed | counted | discarded | decoded => rfl
  | refused => exact s.raise_cfg _
  | byte x => exact rxByteOp_cfg x s
  | received _ b => exact receiveBytes_cfg b s

theorem Effect.scan_eq {s t : State} {i : Instr} (h : Effect s i t) (hi : writesScanner i = false) :
    t.scan = s.scan := by
  cases h with
  | reset | byte | flushed => exact absurd hi nofun
  | received row => exact absurd (writesScanner_of_format_rx row) (by simp [hi])
  | profile | sent | armed | counted | discarded | decoded => rfl
  | unknownProfile => exact State.raise_scan _ _
  | refused => exact s.raise_scan _

theorem receiveBytes_err (b : ByteSeq) (s : State) :
    (receiveBytes b s).1.err = s.err ∨ (receiveBytes b s).1.err = errSet .rxOverrun s.err := by
  refine receiveBytes_keeps (keep := fun t => t.err = s.err ∨ t.err = errSet .rxOverrun s.err) ?_ b s (.inl rfl)
  intro x t ht
  rcases rxByteOp_err x t with hx | hx <;> rcases ht with ht | ht <;> simp [hx, ht, errSet_errSet]

/-- An operation other than `RESET` leaves `ERR` as it is or sets one flag in it (R37, R261). -/
theorem Effect.err_eq {s t : State} {i : Instr} (h : Effect s i t) (hi : i ≠ .reset) :
    t.err = s.err ∨ ∃ b, t.err = errSet b s.err := by
  cases h with
  | reset => exact absurd rfl hi
  | profile | sent | flushed | armed | counted | discarded | decoded => exact .inl rfl
  | unknownProfile => exact .inr ⟨.cfgUnknown, State.raise_err_of_flag rfl _⟩
  | refused flag => exact .inr ⟨_, State.raise_err_of_flag flag s⟩
  | byte x => exact (rxByteOp_err x s).imp_right (⟨.rxOverrun, ·⟩)
  | received _ b => exact (receiveBytes_err b s).imp_right (⟨.rxOverrun, ·⟩)

theorem errKept_errSet (b : ErrBit) (e : BitVec 5) : errKept e (errSet b e) := by
  intro c hc
  simp [errTest_errSet, hc]

theorem errOneMore_errSet (b : ErrBit) (e : BitVec 5) : errOneMore e (errSet b e) := by
  intro c d hc hc0 hd hd0
  simp only [errTest_errSet, hc0, hd0, Bool.false_or, decide_eq_true_eq] at hc hd
  rw [hc, hd]

theorem errOneMore_refl (e : BitVec 5) : errOneMore e e :=
  fun _ _ hc hc0 => absurd hc (by simp [hc0])

/-! ### The statements about the flags, the configuration and the scanner -/

/-- Settles O12: an effect other than that of `RESET` sets at most one flag. -/
theorem flagsAreSticky : Obligations.FlagsAreSticky := by
  intro i s t hi h
  obtain ⟨u, r, rfl, heff⟩ := effect_of_exec h
  rw [State.setResult_err]
  rcases heff.err_eq hi with hu | ⟨b, hu⟩
  · rw [hu]
    exact ⟨fun _ hb => hb, errOneMore_refl _⟩
  · rw [hu]
    exact ⟨errKept_errSet b _, errOneMore_errSet b _⟩

/-- Settles O17. -/
theorem configWrittenOnlyByProfile : Obligations.ConfigWrittenOnlyByProfile := by
  intro i s t hi h
  obtain ⟨u, r, rfl, heff⟩ := effect_of_exec h
  exact heff.cfg_eq hi

/-- Settles O28. -/
theorem scannerWrittenOnlyByReceive : Obligations.ScannerWrittenOnlyByReceive := by
  intro i s t hi h
  obtain ⟨u, r, rfl, heff⟩ := effect_of_exec h
  exact heff.scan_eq hi

end Sys2Proof.Machine
end

section
/-! SUPPORT. The parts of the block's invariant, each kept by the operations on its registers: the decoded fields
(R31, R32), the space `AMP` (R36), the reassembler (R41 c to g, R34), the scanner (R41 a and b). -/

namespace Sys2Proof.Machine

/-! ### The ranges of the decoders -/

theorem decimalByte_iff {b : Byte} : decimalByte b = true ↔ hi b ≤ 9 ∧ lo b ≤ 9 := by
  simp [decimalByte, maxDigit]

theorem bcdByte_le {b : Byte} (h : decimalByte b = true) : bcdByte b ≤ 99 := by
  obtain ⟨hhi, hlo⟩ := decimalByte_iff.mp h
  unfold bcdByte
  omega

/-- `n` bytes of decimal digits are a number of at most `2n` digits (R69). -/
theorem bcdReversed_lt {B : ByteSeq} (h : B.all decimalByte = true) : bcdReversed B < 100 ^ B.length := by
  induction B with
  | nil => decide
  | cons b bs ih =>
    obtain ⟨hb, hbs⟩ := Bool.and_eq_true_iff.mp (List.all_cons.symm.trans h)
    have hhead := bcdByte_le hb
    have htail := ih hbs
    rw [bcdReversed, List.length_cons, pow_succ]
    omega

theorem frequencyHz_le (B : ByteSeq) : frequencyHz B ≤ 9999999999 := by
  unfold frequencyHz
  split
  · exact Nat.zero_le _
  · next hlen =>
    split
    · exact Nat.zero_le _
    · next hdig =>
      have h := bcdReversed_lt (B := B) (by simpa using hdig)
      rw [not_not.mp hlen] at h
      exact Nat.le_of_lt_succ h

theorem decodeFrequency_le (B : ByteSeq) : (decodeFrequency B).toNat ≤ 9999999999 := by
  rw [decodeFrequency, BitVec.toNat_ofNat]
  exact (Nat.mod_le _ _).trans (frequencyHz_le B)

/-- The two bytes of a span that carry its digits 2 to 5 (R104). -/
theorem slice_one_three {S : ByteSeq} (h : 3 ≤ S.length) : slice S 1 3 = [S.getD 1 0, S.getD 2 0] := by
  match S, h with
  | _ :: _ :: _ :: _, _ => rfl
  | [], h | [_], h | [_, _], h => simp at h

theorem spanHzOf_le (S : ByteSeq) : spanHzOf S ≤ 999900 := by
  unfold spanHzOf
  split
  · exact Nat.zero_le _
  · next hlen =>
    split
    · exact Nat.zero_le _
    · next hdig =>
      have hsix : S.length = 6 := not_not.mp hlen
      rw [slice_one_three (by omega)] at hdig
      have hdigits :
          (hi (S.getD 1 0) ≤ 9 ∧ lo (S.getD 1 0) ≤ 9) ∧ hi (S.getD 2 0) ≤ 9 ∧ lo (S.getD 2 0) ≤ 9 := by
        simpa only [List.all_cons, List.all_nil, Bool.and_true, Bool.not_eq_true', Bool.not_eq_false, Bool.and_eq_true,
          decimalByte_iff] using hdig
      dsimp only
      omega

theorem decodeSpan_le (S : ByteSeq) : (decodeSpan S).toNat ≤ 999900 := by
  rw [decodeSpan, BitVec.toNat_ofNat]
  exact (Nat.mod_le _ _).trans (spanHzOf_le S)

/-! ### The decoded fields -/

theorem fieldInv_of_eq {q q' : Reassembler} (h : FieldInv q) (hc : q'.centerHz = q.centerHz)
    (hs : q'.spanHz = q.spanHz) : FieldInv q' :=
  ⟨hc ▸ h.center, hs ▸ h.span⟩

theorem fieldInv_of_zero {q : Reassembler} (hc : q.centerHz = 0) (hs : q.spanHz = 0) : FieldInv q :=
  ⟨by simp [hc], by simp [hs]⟩

theorem scCount_fieldInv {q : Reassembler} (h : FieldInv q) : FieldInv (scCount q) := by
  rcases scCount_cases q with ⟨-, hq⟩ | ⟨-, -, hq⟩ | ⟨-, -, hq⟩ <;> rw [hq]
  · exact h
  · exact fieldInv_of_eq h rfl rfl
  · exact fieldInv_of_zero rfl rfl

theorem scComplete_fieldInv (A : ByteSeq) {q : Reassembler} (h : FieldInv q) : FieldInv (scComplete A q) := by
  unfold scComplete
  split <;> exact fieldInv_of_eq h rfl rfl

theorem scFrame_fieldInv (sub : Byte) (P : ByteSeq) {q : Reassembler} (h : FieldInv q) : FieldInv (scFrame sub P q) := by
  rcases scFrame_cases sub P q with hq | ⟨-, -, hq⟩ | ⟨-, -, hq⟩ | ⟨-, -, hq⟩ <;> rw [hq]
  · exact h
  · exact ⟨decodeFrequency_le _, decodeSpan_le _⟩
  · exact fieldInv_of_eq h rfl rfl
  · exact scComplete_fieldInv _ h

/-! ### The space AMP -/

theorem ampInv_of_eq {q q' : Reassembler} (h : AmpInv q) (ha : q'.amp = q.amp) (hl : q'.ampLen = q.ampLen) :
    AmpInv q' :=
  ⟨ha ▸ h.canonical, by rw [ha, hl, h.listed], hl ▸ h.lengths⟩

theorem ampInv_of_empty {q : Reassembler} (ha : q.amp = Memory.empty) (hl : q.ampLen = 0) : AmpInv q :=
  ⟨ha ▸ Memory.empty_wf, by rw [ha, hl]; rfl, .inl hl⟩

theorem scCount_ampInv {q : Reassembler} (h : AmpInv q) : AmpInv (scCount q) := by
  rcases scCount_cases q with ⟨-, hq⟩ | ⟨-, -, hq⟩ | ⟨-, -, hq⟩ <;> rw [hq]
  · exact h
  · exact ampInv_of_eq h rfl rfl
  · exact ampInv_of_empty rfl rfl

/-- Completion fills the space or empties it, whatever it held (R188, R189). -/
theorem scComplete_ampInv (A : ByteSeq) (q : Reassembler) : AmpInv (scComplete A q) := by
  unfold scComplete
  split
  · next hlen =>
    exact ⟨Memory.fill_wf A hlen.le, (Memory.fill_indices A).trans (congrArg List.range hlen), .inr rfl⟩
  · exact ampInv_of_empty rfl rfl

theorem scFrame_ampInv (sub : Byte) (P : ByteSeq) {q : Reassembler} (h : AmpInv q) : AmpInv (scFrame sub P q) := by
  rcases scFrame_cases sub P q with hq | ⟨-, -, hq⟩ | ⟨-, -, hq⟩ | ⟨-, -, hq⟩ <;> rw [hq]
  · exact h
  · exact ampInv_of_eq h rfl rfl
  · exact ampInv_of_eq h rfl rfl
  · exact scComplete_ampInv _ q

/-! ### The reassembler: what the invariant asks in each of its states -/

theorem inFlight_iff {q : Reassembler} :
    inFlight q = true ↔ q.scState = .awaitingHeader ∨ q.scState = .accumulating := by
  unfold inFlight
  cases q.scState <;> simp

theorem reassemblerInv_of_idle {q : Reassembler} (hst : q.scState = .idle)
    (hdata : q.acc = [] ∧ q.centerHz = 0 ∧ q.spanHz = 0 ∧ q.ampLen = 0)
    (hres : q.scResult = .none ∨ q.scResult = .incomplete ∨ q.scResult = .aborted)
    (hcount : q.attCount.toNat ≤ max q.attBudget.toNat 1) : ReassemblerInv q where
  idle _ := by
    obtain ⟨hacc, hc, hs, hlen⟩ := hdata
    exact ⟨hacc, hc, hs, hlen, hres⟩
  awaiting h := by simp [hst] at h
  accumulating h := by simp [hst] at h
  complete h := by simp [hst] at h
  budget h := by simp [inFlight_iff, hst] at h
  counted := hcount

theorem reassemblerInv_of_awaiting {q : Reassembler} (hst : q.scState = .awaitingHeader)
    (hdata : q.acc = [] ∧ q.centerHz = 0 ∧ q.spanHz = 0 ∧ q.ampLen = 0 ∧ q.scResult = .none)
    (hcount : q.attCount.toNat < max q.attBudget.toNat 1) : ReassemblerInv q where
  idle h := by simp [hst] at h
  awaiting _ := hdata
  accumulating h := by simp [hst] at h
  complete h := by simp [hst] at h
  budget _ := hcount
  counted := hcount.le

theorem reassemblerInv_of_accumulating {q : Reassembler} (hst : q.scState = .accumulating)
    (hdata : q.ampLen = 0 ∧ q.scResult = .none)
    (hcount : q.attCount.toNat < max q.attBudget.toNat 1) : ReassemblerInv q where
  idle h := by simp [hst] at h
  awaiting h := by simp [hst] at h
  accumulating _ := hdata
  complete h := by simp [hst] at h
  budget _ := hcount
  counted := hcount.le

theorem reassemblerInv_of_complete {q : Reassembler} (hst : q.scState = .complete)
    (hdata : q.acc = [] ∧ ((q.scResult = .ok ∧ q.ampLen = 475) ∨ (q.scResult = .decodeFail ∧ q.ampLen = 0)))
    (hcount : q.attCount.toNat ≤ max q.attBudget.toNat 1) : ReassemblerInv q where
  idle h := by simp [hst] at h
  awaiting h := by simp [hst] at h
  accumulating h := by simp [hst] at h
  complete _ := hdata
  budget h := by simp [inFlight_iff, hst] at h
  counted := hcount

/-! ### The operations of the reassembler -/

theorem scArm_reassemblerInv (budget : BitVec 8) (q : Reassembler) : ReassemblerInv (scArm budget q) :=
  reassemblerInv_of_awaiting rfl ⟨rfl, rfl, rfl, rfl, rfl⟩ (lt_max_of_lt_right Nat.one_pos)

theorem scDiscard_reassemblerInv {q : Reassembler} (h : ReassemblerInv q) : ReassemblerInv (scDiscard q) := by
  refine reassemblerInv_of_idle rfl ⟨rfl, rfl, rfl, rfl⟩ ?_ h.counted
  by_cases hq : inFlight q = true <;> simp [scDiscard, hq]

/-- One more attempt of a session in flight does not leave the 8 bits of `ATT_COUNT` (R34, log 11). -/
theorem attCount_succ {q : Reassembler} (h : ReassemblerInv q) (hq : inFlight q = true) :
    (q.attCount + 1).toNat = q.attCount.toNat + 1 := by
  have hcount := h.budget hq
  have hbudget := q.attBudget.isLt
  have hone : (1 : BitVec 8).toNat = 1 := rfl
  rw [BitVec.toNat_add, hone]
  omega

theorem scCount_reassemblerInv {q : Reassembler} (h : ReassemblerInv q) : ReassemblerInv (scCount q) := by
  rcases scCount_cases q with ⟨-, hq⟩ | ⟨hfl, hlt, hq⟩ | ⟨hfl, -, hq⟩ <;> rw [hq]
  · exact h
  · have hcount : (q.attCount + 1).toNat < max q.attBudget.toNat 1 := by
      rw [attCount_succ h hfl]
      exact lt_max_of_lt_left hlt
    rcases inFlight_iff.mp hfl with hst | hst
    · exact reassemblerInv_of_awaiting hst (h.awaiting hst) hcount
    · exact reassemblerInv_of_accumulating hst (h.accumulating hst) hcount
  · have hcount : (q.attCount + 1).toNat ≤ max q.attBudget.toNat 1 := by
      rw [attCount_succ h hfl]
      exact h.budget hfl
    exact reassemblerInv_of_idle rfl ⟨rfl, rfl, rfl, rfl⟩ (.inr (.inl rfl)) hcount

theorem scComplete_reassemblerInv (A : ByteSeq) {q : Reassembler} (h : ReassemblerInv q) :
    ReassemblerInv (scComplete A q) := by
  unfold scComplete
  split
  · exact reassemblerInv_of_complete rfl ⟨rfl, .inl ⟨rfl, rfl⟩⟩ h.counted
  · exact reassemblerInv_of_complete rfl ⟨rfl, .inr ⟨rfl, rfl⟩⟩ h.counted

theorem scFrame_reassemblerInv (sub : Byte) (P : ByteSeq) {q : Reassembler} (h : ReassemblerInv q) :
    ReassemblerInv (scFrame sub P q) := by
  rcases scFrame_cases sub P q with hq | ⟨hst, -, hq⟩ | ⟨hst, -, hq⟩ | ⟨-, -, hq⟩ <;> rw [hq]
  · exact h
  · obtain ⟨-, -, -, hlen, hres⟩ := h.awaiting hst
    exact reassemblerInv_of_accumulating rfl ⟨hlen, hres⟩ (h.budget (inFlight_iff.mpr (.inl hst)))
  · exact reassemblerInv_of_accumulating hst (h.accumulating hst) (h.budget (inFlight_iff.mpr (.inr hst)))
  · exact scComplete_reassemblerInv _ h

/-! ### The scanner -/

theorem rxbufCap_ge_of_legal {p : Config.Params} (h : p.legal = true) {c : Nat} (hc : p.rxbufCap = some c) :
    64 ≤ c := by
  simp only [Config.Params.legal, hc, Bool.and_eq_true, decide_eq_true_eq] at h
  exact h.1

theorem scannerInv_of_empty (cap : Option Nat) {r : Scanner} (hst : r.rxs ≠ .body) (hbuf : r.rxbuf = []) :
    ScannerInv cap r :=
  ⟨fun _ => hbuf, (absurd · hst), (absurd · hst), (absurd · hst), (absurd · hst)⟩

theorem huntOn_scannerInv (cap : Option Nat) (x : Byte) : ScannerInv cap (huntOn x) := by
  refine scannerInv_of_empty cap ?_ rfl
  unfold huntOn
  split <;> nofun

/-- The first byte of a candidate is the host's address (R153). -/
theorem scannerInv_first {cap : Option Nat} (hcap : fitsCap cap 1) :
    ScannerInv cap { rxs := .body, rxbuf := [hostAddrValue] } :=
  ⟨fun h => absurd rfl h, fun _ => Nat.le_refl 1, fun _ => hcap, fun _ => rfl, fun _ => by decide⟩

theorem fitsCap_succ {cap : Option Nat} {n : Nat} (h : bufferFull cap n ≠ true) : fitsCap cap (n + 1) := by
  rintro c rfl
  simpa [bufferFull] using h

/-- A byte other than the postamble is appended to a candidate that is not full (R154). -/
theorem scannerInv_append {cap : Option Nat} {x : Byte} {buf : ByteSeq}
    (h : ScannerInv cap { rxs := .body, rxbuf := buf }) (hx : x ≠ postamble)
    (hfull : bufferFull cap buf.length ≠ true) :
    ScannerInv cap { rxs := .body, rxbuf := buf ++ [x] } where
  emptyOutside h' := absurd rfl h'
  nonempty _ := by simp
  fits _ := by simpa using fitsCap_succ hfull
  startsWithHost _ := by
    have hhead := h.startsWithHost rfl
    simp only at hhead
    simp [hhead]
  noPostamble _ := by
    have hmem := h.noPostamble rfl
    simp only [List.mem_append, List.mem_singleton, not_or]
    exact ⟨hmem, Ne.symm hx⟩

theorem scannerStep_scannerInv {cap : Option Nat} (hcap : fitsCap cap 1) (x : Byte) {r : Scanner} (h : ScannerInv cap r) :
    ScannerInv cap (scannerStep cap hostAddrValue x r).1 := by
  obtain ⟨st, buf⟩ := r
  cases st with
  | hunt => exact huntOn_scannerInv cap x
  | pre1 =>
    refine scannerInv_of_empty cap ?_ rfl
    simp only [scannerStep]
    split <;> nofun
  | dst =>
    simp only [scannerStep]
    split
    · next hx => exact hx ▸ scannerInv_first hcap
    · refine scannerInv_of_empty cap ?_ rfl
      simp only
      split <;> nofun
  | body =>
    simp only [scannerStep]
    split
    · exact scannerInv_of_empty cap nofun rfl
    · next hx =>
      split
      · exact huntOn_scannerInv cap x
      · next hfull => exact scannerInv_append h hx hfull

end Sys2Proof.Machine
end

section
/-! SUPPORT. The invariant of the block (R41): it holds after reset, every operation keeps it, so every step does and
every reachable state has it. -/

namespace Sys2Proof.Machine

/-! ### Changes to one group of registers -/

/-- The invariant speaks of the registers and the parameters alone, and not of `ERR`. -/
theorem blockInv_of_eq {s t : State} (h : BlockInv s) (hcfg : t.cfg = s.cfg) (hscan : t.scan = s.scan)
    (hsc : t.sc = s.sc) (hparams : t.params = s.params) : BlockInv t where
  params := hparams ▸ h.params
  host := hcfg ▸ h.host
  config := by rw [hcfg, hparams]; exact h.config
  scanner := by rw [hscan, hparams]; exact h.scanner
  reassembler := hsc ▸ h.reassembler
  amp := hsc ▸ h.amp
  fields := hsc ▸ h.fields

theorem blockInv_setResult {s : State} (h : BlockInv s) (r : Result) : BlockInv (s.setResult r) :=
  blockInv_of_eq h rfl rfl rfl rfl

theorem blockInv_setPort {s : State} (h : BlockInv s) (p : List Transaction) : BlockInv (s.setPort p) :=
  blockInv_of_eq h rfl rfl rfl rfl

theorem blockInv_raise {s : State} (h : BlockInv s) {e : Event} {b : ErrBit} (flag : eventFlag e = some b) :
    BlockInv (s.raise e) :=
  blockInv_of_eq h (s.raise_cfg e) (s.raise_scan e) (State.raise_sc_of_flag flag s) (s.raise_params e)

theorem blockInv_setCfg {s : State} (h : BlockInv s) {c : ConfigRegs} (hc : ConfigInv s.params.profiles c) :
    BlockInv (s.setCfg c) :=
  ⟨h.params, c.hostAddr.value_eq, hc, h.scanner, h.reassembler, h.amp, h.fields⟩

theorem blockInv_setScan {s : State} (h : BlockInv s) {r : Scanner} (hr : ScannerInv s.params.rxbufCap r) :
    BlockInv (s.setScan r) :=
  ⟨h.params, h.host, h.config, hr, h.reassembler, h.amp, h.fields⟩

theorem blockInv_setSc {s : State} (h : BlockInv s) {q : Reassembler} (hinv : ReassemblerInv q) (hamp : AmpInv q)
    (hfields : FieldInv q) : BlockInv (s.setSc q) :=
  ⟨h.params, h.host, h.config, h.scanner, hinv, hamp, hfields⟩

/-! ### The operations -/

/-- Every register at its reset value, with any legal parameters (R42). -/
theorem blockInv_of_reset {s : State} (hblock : s.toBlock = Block.reset) (hp : s.params.legal = true) : BlockInv s := by
  obtain ⟨⟨cfg, scan, sc, err⟩, tx, result, port, params⟩ := s
  cases hblock
  exact
    { params := hp
      host := rfl
      config := .inl ⟨rfl, rfl, rfl⟩
      scanner := scannerInv_of_empty _ nofun rfl
      reassembler := reassemblerInv_of_idle rfl ⟨rfl, rfl, rfl, rfl⟩ (.inl rfl) (Nat.zero_le _)
      amp := ampInv_of_empty rfl rfl
      fields := fieldInv_of_zero rfl rfl }

theorem loadProfile_configInv {table : List Config.ProfileRow} {row : Config.ProfileRow} (h : row ∈ table)
    (c : ConfigRegs) : ConfigInv table (loadProfile row c) :=
  .inr ⟨row, h, rfl, rfl, rfl⟩

theorem loadProfile_default_configInv (table : List Config.ProfileRow) (c : ConfigRegs) :
    ConfigInv table (loadProfile defaultProfile c) :=
  .inl ⟨rfl, rfl, rfl⟩

theorem scopeDispatch_blockInv {s : State} (h : BlockInv s) (r : FrameRecord) :
    BlockInv (s.setSc (scopeDispatch r s.sc)) := by
  unfold scopeDispatch
  split
  · next sub P _ =>
    exact blockInv_setSc h (scFrame_reassemblerInv sub P h.reassembler) (scFrame_ampInv sub P h.amp)
      (scFrame_fieldInv sub P h.fields)
  · exact h

theorem rxByteOp_blockInv (x : Byte) (s : State) (h : BlockInv s) : BlockInv (rxByteOp x s).1 := by
  have hcap : fitsCap s.params.rxbufCap 1 := fun c hc => le_trans (by decide) (rxbufCap_ge_of_legal h.params hc)
  have hscan := blockInv_setScan h (scannerStep_scannerInv hcap x h.scanner)
  simp only [rxByteOp, HostAddr.value_eq]
  split
  · exact hscan
  · exact blockInv_raise (e := .rxOverrun) hscan rfl
  · exact scopeDispatch_blockInv hscan _

/-- Every operation keeps the invariant. -/
theorem Effect.keeps_blockInv {s t : State} {i : Instr} (heff : Effect s i t) (h : BlockInv s) : BlockInv t := by
  cases heff with
  | reset => exact blockInv_of_reset rfl h.params
  | profile known => exact blockInv_setCfg h (loadProfile_configInv known s.cfg)
  | unknownProfile => exact blockInv_raise (blockInv_setCfg h (loadProfile_default_configInv _ s.cfg)) rfl
  | sent => exact blockInv_of_eq h rfl rfl rfl rfl
  | refused flag => exact blockInv_raise h flag
  | byte x => exact rxByteOp_blockInv x s h
  | received _ b => exact receiveBytes_keeps rxByteOp_blockInv b s h
  | flushed => exact blockInv_setScan h (scannerInv_of_empty _ nofun rfl)
  | armed budget =>
    exact blockInv_setSc h (scArm_reassemblerInv budget s.sc) (ampInv_of_empty rfl rfl) (fieldInv_of_zero rfl rfl)
  | counted =>
    exact blockInv_setSc h (scCount_reassemblerInv h.reassembler) (scCount_ampInv h.amp) (scCount_fieldInv h.fields)
  | discarded =>
    exact blockInv_setSc h (scDiscard_reassemblerInv h.reassembler) (ampInv_of_empty rfl rfl) (fieldInv_of_zero rfl rfl)
  | decoded => exact h

theorem exec_keeps_blockInv {i : Instr} {s t : State} (h : BlockInv s) (hexec : exec i s = .next t) : BlockInv t := by
  obtain ⟨u, r, rfl, heff⟩ := effect_of_exec hexec
  exact blockInv_setResult (heff.keeps_blockInv h) r

theorem unnamedTransaction_keeps_blockInv {tr : Transaction} {s t : State} (h : BlockInv s)
    (hun : unnamedTransaction tr s = .next t) : BlockInv t := by
  by_cases hlane : tr.lane = .rx
  · rw [unnamedTransaction_of_rx hlane, receiveRun_eq] at hun
    cases hun
    exact blockInv_setResult (receiveBytes_keeps rxByteOp_blockInv tr.bytes s h) _
  · rw [unnamedTransaction_of_not_rx hlane] at hun
    cases hun
    exact h

/-- The operations of a list, in order, all return and keep the invariant. -/
theorem runAll_keeps_blockInv (ops : List Instr) {s : State} (h : BlockInv s) :
    ∃ t, runAll exec ops s = .next t ∧ BlockInv t := by
  induction ops generalizing s with
  | nil => exact ⟨s, rfl, h⟩
  | cons i rest ih =>
    obtain ⟨u, r, hexec, -⟩ := exec_effect i s
    simp only [runAll, hexec]
    exact ih (exec_keeps_blockInv h hexec)

/-! ### The statements about reset and the invariant -/

/-- Settles O8: the state after reset is written out. -/
theorem resetRegisters : Obligations.ResetRegisters :=
  ⟨rfl, rfl, rfl, rfl, rfl, rfl, rfl, rfl, rfl, rfl, rfl, rfl, rfl, rfl, fun _ => rfl, rfl, rfl⟩

/-- Settles O9. -/
theorem resetInvariant : Obligations.ResetInvariant :=
  fun _ hp => blockInv_of_reset rfl hp

/-- Settles O10, by what stands first on the queue: nothing, an operation, or bytes that name none. -/
theorem stepKeepsInvariant : Obligations.StepKeepsInvariant := by
  intro s t h hstep
  cases hport : s.port with
  | nil =>
    rw [step_of_port_nil hport] at hstep
    cases hstep
    exact h
  | cons tr rest =>
    cases hdec : decode s.reading tr with
    | ok i =>
      rw [step_of_decode_ok hport hdec] at hstep
      exact exec_keeps_blockInv (blockInv_setPort h rest) hstep
    | error e =>
      rw [step_of_decode_error hport hdec] at hstep
      exact unnamedTransaction_keeps_blockInv (blockInv_setPort h rest) hstep

/-- Settles O11, by induction on the operations from reset. -/
theorem reachableStatesAreSound : Obligations.ReachableStatesAreSound :=
  fun p ops hp => runAll_keeps_blockInv ops (resetInvariant p hp)

end Sys2Proof.Machine
end

section
/-! SUPPORT. The transmit stream and the space `AMP`: what an operation puts on the stream (R61, R130), and what the
host reads of `AMP` in a state of the invariant (R36, R65). -/

namespace Sys2Proof.Machine

/-! ### The transmit stream -/

/-- An operation other than `RESET` leaves the transmit stream as it is, or is a transmit form and puts a frame at its
end (R61, R130). -/
theorem Effect.tx_cases {s t : State} {i : Instr} (h : Effect s i t) (hi : i ≠ .reset) :
    t.tx = s.tx ∨ (writesTx i = true ∧ ∃ F, t.tx = s.tx ++ F) := by
  cases h with
  | reset => exact absurd rfl hi
  | sent writes F => exact .inr ⟨writes, F, s.txPut_tx F⟩
  | profile | flushed | armed | counted | discarded | decoded => exact .inl rfl
  | unknownProfile => exact .inl (State.raise_tx _ _)
  | refused => exact .inl (s.raise_tx _)
  | byte x => exact .inl (rxByteOp_tx x s)
  | received _ b => exact .inl (receiveBytes_tx b s)

/-- Settles O23: an effect that changes the stream is that of a transmit form, and appends. -/
theorem transmitStreamGrows : Obligations.TransmitStreamGrows := by
  constructor
  · intro i s t hi h
    obtain ⟨u, r, rfl, heff⟩ := effect_of_exec h
    have hreset : i ≠ .reset := by
      rintro rfl
      exact absurd hi nofun
    rcases heff.tx_cases hreset with hu | ⟨writes, -⟩
    · exact hu
    · exact absurd writes (by simp [hi])
  · intro i s t hreset h
    obtain ⟨u, r, rfl, heff⟩ := effect_of_exec h
    rw [State.setResult_tx]
    rcases heff.tx_cases hreset with hu | ⟨-, F, hu⟩
    · rw [hu]
    · rw [hu]
      exact List.prefix_append s.tx F

/-! ### Reading AMP -/

/-- The indices that read as a byte are the listed ones. -/
theorem Memory.isSome_read_iff (m : Memory) (i : Nat) : (m.read i).isSome = true ↔ i ∈ m.map (·.1) := by
  simp [Memory.read, List.find?_isSome]

/-- Below `AMP_LEN` the host's read is that of the cells (R65). -/
theorem State.readAmp_of_lt {s : State} {i : Nat} (h : i < s.sc.ampLen) : s.readAmp i = s.sc.amp.read i :=
  if_pos h

/-- From `AMP_LEN` on the host's read is refused (R65). -/
theorem State.readAmp_of_le {s : State} {i : Nat} (h : s.sc.ampLen ≤ i) : s.readAmp i = none :=
  if_neg h.not_gt

theorem State.isSome_readAmp_of_lt {s : State} (h : AmpInv s.sc) {i : Nat} (hi : i < s.sc.ampLen) :
    (s.readAmp i).isSome = true := by
  rw [State.readAmp_of_lt hi, Memory.isSome_read_iff, h.listed]
  exact List.mem_range.mpr hi

/-- No index below `AMP_LEN` is left out of the array the host sees (R36, R194). -/
theorem State.amplitudes_length {s : State} (h : AmpInv s.sc) : s.amplitudes.length = s.sc.ampLen := by
  have hall : s.amplitudes.length = (List.range s.sc.ampLen).length :=
    List.filterMap_length_eq_length.mpr fun i hi => s.isSome_readAmp_of_lt h (List.mem_range.mp hi)
  rw [hall, List.length_range]

/-- `AMP` holds a sweep exactly when the result is `OK`; of the four states only `Complete` can have that (R41). -/
theorem reassemblerInv_ampLen_cases {q : Reassembler} (h : ReassemblerInv q) :
    (q.scResult = .ok ∧ q.ampLen = 475) ∨ (q.scResult ≠ .ok ∧ q.ampLen = 0) := by
  cases hst : q.scState with
  | idle =>
    obtain ⟨-, -, -, hlen, hres⟩ := h.idle hst
    exact .inr ⟨by rcases hres with hr | hr | hr <;> simp [hr], hlen⟩
  | awaitingHeader =>
    obtain ⟨-, -, -, hlen, hres⟩ := h.awaiting hst
    exact .inr ⟨by simp [hres], hlen⟩
  | accumulating =>
    obtain ⟨hlen, hres⟩ := h.accumulating hst
    exact .inr ⟨by simp [hres], hlen⟩
  | complete =>
    obtain ⟨-, hend⟩ := h.complete hst
    exact hend.imp_right fun ⟨hres, hlen⟩ => ⟨by simp [hres], hlen⟩

/-- Settles O50: the cells are listed index by index below `AMP_LEN`, and each state of the reassembler fixes
`AMP_LEN` with the result. -/
theorem ampReadableBelowLength : Obligations.AmpReadableBelowLength := by
  intro s h
  have hread : ∀ i, i < s.sc.ampLen → ∃ b : Byte, s.readAmp i = some b :=
    fun i hi => Option.isSome_iff_exists.mp (s.isSome_readAmp_of_lt h.amp hi)
  refine ⟨hread, fun i hi => s.readAmp_of_le hi, s.amplitudes_length h.amp, ?_⟩
  rcases reassemblerInv_ampLen_cases h.reassembler with ⟨hres, hlen⟩ | ⟨hres, hlen⟩ <;> simp [hres, hlen]

end Sys2Proof.Machine
end

section
/-! SUPPORT. Decoding and encoding are inverse to each other. For each layer of the decoder, which bytes it accepts and
what it reads there; from these the two directions for each lane (command port, transmit, receive), and last
`decode_encode` and `encode_of_decode`. -/

namespace Sys2Proof.Machine

/-! ### Operand images on the command port (log 2) -/

theorem takeSeq_putSeq_append (q r : ByteSeq) : takeSeq (putSeq q ++ r) = .ok (q, r) := by
  induction q with
  | nil => rw [putSeq, takeSeq.eq_def]; rfl
  | cons b bs ih => simp [putSeq, takeSeq, ih]

theorem takeSeq_putSeq (q : ByteSeq) : takeSeq (putSeq q) = .ok (q, []) := by
  rw [← List.append_nil (putSeq q), takeSeq_putSeq_append]

theorem eq_putSeq_append_of_takeSeq {bs q r : ByteSeq} (h : takeSeq bs = .ok (q, r)) : bs = putSeq q ++ r := by
  fun_induction takeSeq bs generalizing q with
  | case2 => cases h; rfl
  | case4 b rest' q' r' hrec _ ih => cases h; rw [ih hrec]; rfl
  | case1 | case3 | case5 | case6 => cases h

theorem noOperand_eq_ok_iff {i j : Instr} {rest : ByteSeq} : noOperand i rest = .ok j ↔ rest = [] ∧ j = i := by
  cases rest <;> simp [noOperand, eq_comm]

theorem byteOperand_eq_ok_iff {f : Byte → Instr} {rest : ByteSeq} {j : Instr} :
    byteOperand f rest = .ok j ↔ ∃ x, rest = [x] ∧ j = f x := by
  cases rest <;> simp [byteOperand, noOperand_eq_ok_iff]

/-- A word is its two halves. -/
theorem word_eq_halves (raw : BitVec 16) : raw.extractLsb' 8 8 ++ raw.extractLsb' 0 8 = raw :=
  (BitVec.extractLsb'_append_extractLsb'_eq_extractLsb' (x := raw) rfl).trans BitVec.extractLsb'_eq_self

theorem wordOperand_eq_ok_iff {f : BitVec 16 → Instr} {rest : ByteSeq} {j : Instr} :
    wordOperand f rest = .ok j ↔ ∃ raw, rest = [raw.extractLsb' 0 8, raw.extractLsb' 8 8] ∧ j = f raw := by
  match rest with
  | [] | [_] => simp [wordOperand]
  | l :: h :: more =>
    constructor
    · intro hj
      obtain ⟨rfl, rfl⟩ := noOperand_eq_ok_iff.mp hj
      exact ⟨h ++ l, by rw [BitVec.extractLsb'_append_eq_right, BitVec.extractLsb'_append_eq_left], rfl⟩
    · rintro ⟨raw, hbytes, rfl⟩
      cases hbytes
      exact noOperand_eq_ok_iff.mpr ⟨rfl, by rw [word_eq_halves]⟩

theorem seqOperand_eq_ok_iff {f : ByteSeq → Instr} {rest : ByteSeq} {j : Instr} :
    seqOperand f rest = .ok j ↔ ∃ q, rest = putSeq q ∧ j = f q := by
  constructor
  · intro hj
    unfold seqOperand at hj
    split at hj
    · next q more h =>
      obtain ⟨rfl, rfl⟩ := noOperand_eq_ok_iff.mp hj
      exact ⟨q, by rw [eq_putSeq_append_of_takeSeq h, List.append_nil], rfl⟩
    · cases hj
  · rintro ⟨q, rfl, rfl⟩
    simp [seqOperand, takeSeq_putSeq, noOperand]

theorem txOperands_eq_ok_iff {rest : ByteSeq} {j : Instr} :
    txOperands rest = .ok j ↔ ∃ d c p, rest = d :: (putSeq c ++ putSeq p) ∧ j = .txEncode d c p := by
  constructor
  · intro hj
    unfold txOperands at hj
    split at hj
    · cases hj
    · next d more =>
      split at hj
      · next c more' h =>
        obtain ⟨p, rfl, rfl⟩ := seqOperand_eq_ok_iff.mp hj
        exact ⟨d, c, p, by rw [eq_putSeq_append_of_takeSeq h], rfl⟩
      · cases hj
  · rintro ⟨d, c, p, rfl, rfl⟩
    simp only [txOperands, takeSeq_putSeq_append]
    exact seqOperand_eq_ok_iff.mpr ⟨p, rfl, rfl⟩

/-- The reserved codes decode whatever bytes follow (R101, R259). -/
theorem decodeOp_reserved (code : BitVec 2) (operands : ByteSeq) :
    decodeOp (BitVec.ofNat 8 (12 + code.toNat) :: operands) = .ok (.reservedOp code operands) := by
  have hcode : code = 0 ∨ code = 1 ∨ code = 2 ∨ code = 3 := by decide +revert
  rcases hcode with rfl | rfl | rfl | rfl <;> rfl

/-- Every operation of the command port is read back from its image. -/
theorem decode_encode_of_lane_op {rd : Reading} {i : Instr} (h : (encode rd i).lane = .op) :
    decode rd (encode rd i) = .ok i := by
  cases i with
  | reset | rxFlush | scAttempt | scAbort => rfl
  | rxByte | scReq | decMode => rfl
  | cfgProfile q | decFreq q | decSpan q => exact seqOperand_eq_ok_iff.mpr ⟨q, rfl, rfl⟩
  | txEncode d c p => exact txOperands_eq_ok_iff.mpr ⟨d, c, p, rfl, rfl⟩
  | decVolt raw => exact wordOperand_eq_ok_iff.mpr ⟨raw, rfl, rfl⟩
  | reservedOp code operands => exact decodeOp_reserved code operands
  | _ => cases h

/-- What is read on the command port has these bytes as its image. -/
theorem encode_of_decodeOp {bs : ByteSeq} {i : Instr} (h : decodeOp bs = .ok i) (rd : Reading) :
    encode rd i = { lane := .op, bytes := bs } ∧ i.wellFormed rd = true := by
  cases bs with
  | nil => cases h
  | cons op rest =>
    have hop : op = BitVec.ofNat 8 op.toNat := by simp
    simp only [decodeOp] at h
    generalize op.toNat = n at h hop
    subst hop
    -- The branches stand in the order of the codes 0 to 11; the last is for all others.
    split at h
    case h_1 | h_5 | h_7 | h_8 =>
      obtain ⟨rfl, rfl⟩ := noOperand_eq_ok_iff.mp h
      exact ⟨rfl, rfl⟩
    case h_2 | h_9 | h_10 =>
      obtain ⟨q, rfl, rfl⟩ := seqOperand_eq_ok_iff.mp h
      exact ⟨rfl, rfl⟩
    case h_4 | h_6 | h_12 =>
      obtain ⟨x, rfl, rfl⟩ := byteOperand_eq_ok_iff.mp h
      exact ⟨rfl, rfl⟩
    case h_3 =>
      obtain ⟨d, c, p, rfl, rfl⟩ := txOperands_eq_ok_iff.mp h
      exact ⟨rfl, rfl⟩
    case h_11 =>
      obtain ⟨raw, rfl, rfl⟩ := wordOperand_eq_ok_iff.mp h
      exact ⟨rfl, rfl⟩
    case h_13 =>
      split at h
      · next hlt =>
        cases h
        have hcode : n = 12 ∨ n = 13 ∨ n = 14 ∨ n = 15 := by grind
        rcases hcode with rfl | rfl | rfl | rfl <;> exact ⟨rfl, rfl⟩
      · cases h

/-! ### Wire frames (R90 to R93) -/

/-- A whole wire frame, and nothing else, has parts. -/
theorem frameParts_eq_ok_iff {bs body : ByteSeq} {dst src : Byte} :
    frameParts bs = .ok (dst, src, body) ↔ bs = wireFrame dst src body := by
  constructor
  · intro h
    unfold frameParts at h
    split at h
    · next p q dst' src' rest =>
      split at h
      · cases h
      · next hpre =>
        split at h
        · cases h
        · next hpost =>
          cases h
          obtain ⟨rfl, rfl⟩ := not_or.mp hpre |>.imp not_not.mp not_not.mp
          simp [wireFrame, List.dropLast_append_getLast? _ (not_not.mp hpost)]
    · cases h
  · rintro rfl
    simp [frameParts, wireFrame]

/-! ### The transmit lane -/

theorem catalogPath_injective {k l : CatalogCmd} (h : catalogPath k = catalogPath l) : k = l := by
  have hfind := findPath_append k []
  rw [h, findPath_append] at hfind
  exact (Option.some.inj hfind).symm

theorem mem_catalog (k : CatalogCmd) : k ∈ catalog := by
  cases k <;> decide

/-- A catalog form is recognised by its destination and its body (R94, R111). -/
theorem catalogOf_eq_some_iff {rd : Reading} {dst : Byte} {body : ByteSeq} {k : CatalogCmd} :
    catalogOf rd dst body = some k ↔ dst = rd.rigAddr ∧ body = catalogPath k := by
  unfold catalogOf
  split
  · next hdst =>
    constructor
    · intro h
      exact ⟨hdst, (beq_iff_eq.mp (List.find?_some (p := fun l => catalogPath l == body) h)).symm⟩
    · rintro ⟨-, rfl⟩
      cases k <;> rfl
  · next hdst => simp [hdst]

theorem catalogOf_eq_none_iff {rd : Reading} {dst : Byte} {body : ByteSeq} :
    catalogOf rd dst body = none ↔ ¬ (dst = rd.rigAddr ∧ body ∈ catalog.map catalogPath) := by
  simp only [Option.eq_none_iff_forall_ne_some, ne_eq, catalogOf_eq_some_iff, List.mem_map, mem_catalog, true_and]
  exact ⟨fun h ⟨hdst, k, hk⟩ => h k ⟨hdst, hk.symm⟩, fun h k ⟨hdst, hk⟩ => h ⟨hdst, k, hk.symm⟩⟩

/-- The generic row takes what no catalog form takes and `TX.ENCODE` can emit (R91, R111). -/
theorem genericOk_iff {rd : Reading} {dst : Byte} {body : ByteSeq} :
    genericOk rd dst body = true ↔ body ≠ [] ∧ body.length ≤ cmdMax + maxPayload ∧ catalogOf rd dst body = none := by
  rw [catalogOf_eq_none_iff, ← List.length_pos_iff]
  simp [genericOk, cmdMin, Nat.one_le_iff_ne_zero, Nat.pos_iff_ne_zero, and_assoc, imp_iff_not_or]

theorem decode_catalogImage (rd : Reading) (k : CatalogCmd) :
    decode rd (catalogImage rd k) = .ok (catalogForm k) := by
  simp [decode, catalogImage, txImage, decodeTx, frameParts_eq_ok_iff.mpr rfl, catalogOf_eq_some_iff.mpr ⟨rfl, rfl⟩]

theorem decode_txImage {rd : Reading} {dst : Byte} {body : ByteSeq} (h : genericOk rd dst body = true) :
    decode rd (txImage dst body) = .ok (.txframeGeneric dst body) := by
  obtain ⟨hne, hlen, hcat⟩ := genericOk_iff.mp h
  simp [decode, txImage, decodeTx, frameParts_eq_ok_iff.mpr rfl, hcat, hne, Nat.not_lt.mpr hlen]

theorem encode_catalogForm (rd : Reading) (k : CatalogCmd) :
    encode rd (catalogForm k) = catalogImage rd k ∧ (catalogForm k).wellFormed rd = true := by
  cases k <;> exact ⟨rfl, rfl⟩

theorem encode_of_decodeTx {rd : Reading} {bs : ByteSeq} {i : Instr} (h : decodeTx rd bs = .ok i) :
    encode rd i = { lane := .tx, bytes := bs } ∧ i.wellFormed rd = true := by
  unfold decodeTx at h
  split at h
  · cases h
  · next dst src body hparts =>
    obtain rfl := frameParts_eq_ok_iff.mp hparts
    split at h
    · cases h
    · next hsrc =>
      obtain rfl := not_not.mp hsrc
      split at h
      · next k hk =>
        cases h
        obtain ⟨rfl, rfl⟩ := catalogOf_eq_some_iff.mp hk
        exact encode_catalogForm rd k
      · next hcat =>
        split at h
        · cases h
        · next hne =>
          split at h
          · cases h
          · next hlen =>
            cases h
            exact ⟨rfl, genericOk_iff.mpr ⟨by simpa using hne, by omega, hcat⟩⟩

/-! ### The receive lane -/

theorem noPostamble_iff {bs : ByteSeq} : noPostamble bs = true ↔ postamble ∉ bs := by
  simp [noPostamble]

theorem noPostamble_cons_append {src : Byte} {p q : ByteSeq} (hp : noPostamble p = true) :
    noPostamble (src :: (p ++ q)) = noPostamble (src :: q) := by
  rw [noPostamble_iff] at hp
  simp [noPostamble, hp]

/-- No catalog path holds a postamble (R94). -/
theorem noPostamble_catalogPath (k : CatalogCmd) : noPostamble (catalogPath k) = true := by
  cases k <;> decide

/-- A frame of a catalog command is read as its row (R92, R111). -/
theorem decode_rxImage {rd : Reading} {k : CatalogCmd} {src : Byte} {payload : ByteSeq}
    (h : noPostamble (src :: payload) = true) :
    decode rd (rxImage k src payload) = .ok (classifyRx rd src k payload) := by
  have hfd := (noPostamble_cons_append (noPostamble_catalogPath k)).trans h
  have hfind := findPath_append k payload
  have hdrop : (catalogPath k ++ payload).drop (catalogPath k).length = payload := List.drop_left
  unfold rxImage decode decodeRx
  generalize catalogPath k ++ payload = body at *
  cases body with
  | nil => cases hfind
  | cons c rest => simp [frameParts_eq_ok_iff.mpr rfl, noPostamble_iff.mp hfd, hfind, hdrop]

/-- A frame whose body begins with no catalog path is read as one of an unknown command (R159). -/
theorem decode_rxUnknown {rd : Reading} {src c : Byte} {rest : ByteSeq}
    (h : noPostamble (src :: c :: rest) = true) (hfind : findPath (c :: rest) = none) :
    decode rd { lane := .rx, bytes := wireFrame hostAddrValue src (c :: rest) } = .ok (.rxUnknown src c rest) := by
  simp [decode, decodeRx, frameParts_eq_ok_iff.mpr rfl, noPostamble_iff.mp h, hfind]

/-- A `27 00` frame without a sub-marker is of the row `RX.SCOPE` (R96). -/
theorem classifyScope_short {rd : Reading} {src : Byte} {payload : ByteSeq} (h : payload.length ≤ rd.subOff) :
    classifyScope rd src payload = .rxScope { src := src, payload := payload } := by
  simp [classifyScope, h]

/-- A payload with a byte at offset `n` is laid out around it (R96). -/
theorem exists_scopePayload {payload : ByteSeq} {n : Nat} {sub : Byte} (h : payload[n]? = some sub) :
    ∃ rest : ScopeRest, rest.before.length = n ∧ payload = scopePayload sub rest := by
  obtain ⟨hn, rfl⟩ := List.getElem?_eq_some_iff.mp h
  exact ⟨⟨payload.take n, payload.drop (n + 1)⟩, List.length_take_of_le hn.le, by simp [scopePayload]⟩

/-- Where the bytes before it end, a scope payload has its sub-marker (R96). -/
theorem scopePayload_getElem? (sub : Byte) (rest : ScopeRest) :
    (scopePayload sub rest)[rest.before.length]? = some sub := by
  simp [scopePayload]

/-- The row of a `27 00` frame whose payload is laid out around its sub-marker (R96, R97). -/
theorem classifyScope_scopePayload {rd : Reading} (src sub : Byte) {rest : ScopeRest}
    (h : rest.before.length = rd.subOff) :
    classifyScope rd src (scopePayload sub rest) =
      if sub = markFirst then .rxScopeFirst src rest
      else if sub = markLast then .rxScopeLast src rest
      else .rxScopeMid src sub rest := by
  have hsub : (scopePayload sub rest)[rd.subOff]? = some sub := h ▸ scopePayload_getElem? sub rest
  have htake : (scopePayload sub rest).take rd.subOff = rest.before := by simp [scopePayload, ← h]
  have hdrop : (scopePayload sub rest).drop (rd.subOff + 1) = rest.after := by simp [scopePayload, ← h]
  simp only [classifyScope, hsub, htake, hdrop]

theorem scopeOk_iff {rd : Reading} {src sub : Byte} {rest : ScopeRest} :
    scopeOk rd src sub rest = true ↔
      noPostamble (src :: scopePayload sub rest) = true ∧ rest.before.length = rd.subOff := by
  simp [scopeOk]

/-- The row a `27 00` payload is classified as encodes that payload, and is well formed (R96, R97). -/
theorem encode_classifyScope {rd : Reading} {src : Byte} {payload : ByteSeq}
    (h : noPostamble (src :: payload) = true) :
    encode rd (classifyScope rd src payload) = rxImage .readScope src payload ∧
      (classifyScope rd src payload).wellFormed rd = true := by
  cases hsub : payload[rd.subOff]? with
  | none =>
    have hlen := List.getElem?_eq_none_iff.mp hsub
    rw [classifyScope_short hlen]
    exact ⟨rfl, by simp [Instr.wellFormed, h, hlen]⟩
  | some sub =>
    obtain ⟨rest, hbefore, rfl⟩ := exists_scopePayload hsub
    have hok := scopeOk_iff.mpr ⟨h, hbefore⟩
    rw [classifyScope_scopePayload src sub hbefore]
    split
    · next hfirst =>
      subst hfirst
      exact ⟨rfl, hok⟩
    · next hfirst =>
      split
      · next hlast =>
        subst hlast
        exact ⟨rfl, hok⟩
      · next hlast => exact ⟨rfl, by simp [Instr.wellFormed, hok, hfirst, hlast]⟩

/-- The row a received frame is classified as encodes that frame, and is well formed (R92, R111). -/
theorem encode_classifyRx {rd : Reading} {src : Byte} {payload : ByteSeq} (k : CatalogCmd)
    (h : noPostamble (src :: payload) = true) :
    encode rd (classifyRx rd src k payload) = rxImage k src payload ∧
      (classifyRx rd src k payload).wellFormed rd = true := by
  cases k with
  | readScope => exact encode_classifyScope h
  | _ => exact ⟨rfl, h⟩

/-- What is read on the receive lane has these bytes as its frame. -/
theorem encode_of_decodeRx {rd : Reading} {bs : ByteSeq} {i : Instr} (h : decodeRx rd bs = .ok i) :
    encode rd i = { lane := .rx, bytes := bs } ∧ i.wellFormed rd = true := by
  unfold decodeRx at h
  split at h
  · cases h
  · next dst src body hparts =>
    obtain rfl := frameParts_eq_ok_iff.mp hparts
    split at h
    · cases h
    · next hdst =>
      obtain rfl := not_not.mp hdst
      split at h
      · cases h
      · next hfd =>
        have hfd : noPostamble (src :: body) = true := by simpa [noPostamble] using hfd
        split at h
        · cases h
        · next c rest =>
          split at h
          · next k hk =>
            cases h
            obtain ⟨payload, hbody⟩ := findPath_prefix hk
            rw [← hbody] at hfd ⊢
            rw [List.drop_left]
            exact encode_classifyRx k ((noPostamble_cons_append (noPostamble_catalogPath k)).symm.trans hfd)
          · next hk =>
            cases h
            exact ⟨rfl, by simp [Instr.wellFormed, hfd, hk]⟩

/-! ### All lanes -/

/-- Decoding an encoded well-formed instruction gives it back. -/
theorem decode_encode {rd : Reading} {i : Instr} (h : i.wellFormed rd = true) : decode rd (encode rd i) = .ok i := by
  cases i with
  | reset | cfgProfile | txEncode | rxByte | rxFlush | scReq | scAttempt | scAbort | decFreq | decSpan | decVolt
    | decMode | reservedOp => exact decode_encode_of_lane_op rfl
  | rdfreq => exact decode_catalogImage rd .readFreq
  | rdmode => exact decode_catalogImage rd .readMode
  | pwron => exact decode_catalogImage rd .powerOn
  | pwroff => exact decode_catalogImage rd .powerOff
  | rdvolt => exact decode_catalogImage rd .readVolt
  | scopedispOn => exact decode_catalogImage rd .scopeDispOn
  | scopedispOff => exact decode_catalogImage rd .scopeDispOff
  | scopeoutOn => exact decode_catalogImage rd .scopeOutOn
  | scopeoutOff => exact decode_catalogImage rd .scopeOutOff
  | rdscope => exact decode_catalogImage rd .readScope
  | txframeGeneric => exact decode_txImage h
  | rxFreq => exact decode_rxImage (k := .readFreq) h
  | rxMode => exact decode_rxImage (k := .readMode) h
  | rxPwron => exact decode_rxImage (k := .powerOn) h
  | rxPwroff => exact decode_rxImage (k := .powerOff) h
  | rxVolt => exact decode_rxImage (k := .readVolt) h
  | rxScopedispOn => exact decode_rxImage (k := .scopeDispOn) h
  | rxScopedispOff => exact decode_rxImage (k := .scopeDispOff) h
  | rxScopeoutOn => exact decode_rxImage (k := .scopeOutOn) h
  | rxScopeoutOff => exact decode_rxImage (k := .scopeOutOff) h
  | rxScope frame =>
    obtain ⟨hfd, hlen⟩ : noPostamble (frame.src :: frame.payload) = true ∧ frame.payload.length ≤ rd.subOff := by
      simpa [Instr.wellFormed] using h
    exact (decode_rxImage hfd).trans (congrArg _ (classifyScope_short hlen))
  | rxScopeFirst src rest =>
    obtain ⟨hfd, hlen⟩ := scopeOk_iff.mp h
    exact (decode_rxImage hfd).trans (congrArg _ (classifyScope_scopePayload src markFirst hlen))
  | rxScopeLast src rest =>
    obtain ⟨hfd, hlen⟩ := scopeOk_iff.mp h
    exact (decode_rxImage hfd).trans (congrArg _ (classifyScope_scopePayload src markLast hlen))
  | rxScopeMid src sub rest =>
    obtain ⟨hok, hfirst, hlast⟩ : scopeOk rd src sub rest = true ∧ sub ≠ markFirst ∧ sub ≠ markLast := by
      simpa [Instr.wellFormed, and_assoc] using h
    obtain ⟨hfd, hlen⟩ := scopeOk_iff.mp hok
    refine (decode_rxImage hfd).trans (congrArg _ ?_)
    exact (classifyScope_scopePayload src sub hlen).trans (by rw [if_neg hfirst, if_neg hlast])
  | rxUnknown src cmd payload =>
    obtain ⟨hfd, hfind⟩ : noPostamble (src :: cmd :: payload) = true ∧ findPath (cmd :: payload) = none := by
      simpa [Instr.wellFormed] using h
    exact decode_rxUnknown hfd hfind

/-- A transaction that decodes is the encoding of what was read, which is well formed. -/
theorem encode_of_decode {rd : Reading} {t : Transaction} {i : Instr} (h : decode rd t = .ok i) :
    encode rd i = t ∧ i.wellFormed rd = true := by
  obtain ⟨lane, bytes⟩ := t
  cases lane with
  | op => exact encode_of_decodeOp h rd
  | tx => exact encode_of_decodeTx h
  | rx => exact encode_of_decodeRx h

/-! ### The statements about decoding and encoding -/

/-- Settles O4, by the constructors of the instruction, lane by lane. -/
theorem decodeOfEncode : Obligations.DecodeOfEncode :=
  fun _ _ => decode_encode

/-- Settles O5, by the lane of the transaction and the branches of its decoder. -/
theorem encodeOfDecode : Obligations.EncodeOfDecode :=
  fun _ _ _ h => (encode_of_decode h).1

/-- Settles O6, with O5: each branch of a decoder checks what well-formedness asks. -/
theorem decodedIsWellFormed : Obligations.DecodedIsWellFormed :=
  fun _ _ _ h => (encode_of_decode h).2

/-- Settles O3: the ten words are decoded by evaluation. -/
theorem specWordsDecode : Obligations.SpecWordsDecode := by
  unfold Obligations.SpecWordsDecode
  decide

end Sys2Proof.Machine
end

section
/-! SUPPORT. Transmit forms and reserved codes: which lengths `TX.ENCODE` takes, wherever a body is cut (R130, R131), and
what a refusal leaves behind. -/

namespace Sys2Proof.Machine

/-! ### Refusals -/

/-- An event with a flag sets that flag and nothing else (R250, R251). -/
theorem State.raise_eq_setErr {e : Event} {b : ErrBit} (h : eventFlag e = some b) (s : State) :
    s.raise e = s.setErr (errSet b s.err) := by
  simp only [State.raise, h, raiseSc_of_flag h]
  rfl

theorem exec_reservedOp (code : BitVec 2) (operands : ByteSeq) (s : State) :
    exec (.reservedOp code operands) s = .next { s with err := errSet .opIllegal s.err, result := .refused } := by
  rw [exec, execReservedOp, State.raise_eq_setErr (b := .opIllegal) rfl]
  rfl

/-! ### Where the body of a transmit frame is cut (R91, R131) -/

theorem txLengthsOk_iff {cmd payload : ByteSeq} :
    txLengthsOk cmd payload = true ↔ 1 ≤ cmd.length ∧ cmd.length ≤ 3 ∧ payload.length ≤ 50 := by
  simp [txLengthsOk, cmdMin, cmdMax, maxPayload, and_assoc]

/-- Cut after three bytes, a body has legal lengths if some cut gives it legal lengths. -/
theorem txLengthsOk_take_drop {body : ByteSeq} :
    txLengthsOk (body.take cmdMax) (body.drop cmdMax) = true ↔ 1 ≤ body.length ∧ body.length ≤ 53 := by
  rw [txLengthsOk_iff, List.length_take, List.length_drop, cmdMax]
  omega

/-- The generic row emits a frame `TX.ENCODE` can emit (R91, R130). -/
theorem exec_txframeGeneric_ok {body : ByteSeq} (h : 1 ≤ body.length ∧ body.length ≤ 53) (dst : Byte) (s : State) :
    exec (.txframeGeneric dst body) s =
      .next { s with tx := s.tx ++ wireFrame dst hostAddrValue body,
                     result := .txBytes (wireFrame dst hostAddrValue body) } := by
  rw [exec, execTxframeGeneric, txEncodeOp_ok (txLengthsOk_take_drop.mpr h), List.take_append_drop]

/-- The generic row is refused with any other body (R131). -/
theorem exec_txframeGeneric_refused {body : ByteSeq} (h : ¬ (1 ≤ body.length ∧ body.length ≤ 53)) (dst : Byte)
    (s : State) :
    exec (.txframeGeneric dst body) s = .next { s with err := errSet .txArg s.err, result := .refused } :=
  txEncodeOp_refused (Bool.eq_false_iff.mpr (mt txLengthsOk_take_drop.mp h)) dst s

/-! ### The statements about reserved codes and the generic row -/

/-- Settles O18: the effect of the refusal, and the decoder on the codes 12 to 15. -/
theorem reservedCodeRefused : Obligations.ReservedCodeRefused :=
  fun s _ code operands => ⟨exec_reservedOp code operands s, decodeOp_reserved code operands⟩

/-- Settles O21, by the length of the body. -/
theorem genericFrameEmits : Obligations.GenericFrameEmits := by
  intro s dst body
  constructor
  · exact fun h => exec_txframeGeneric_ok h dst s
  · exact fun h => exec_txframeGeneric_refused (by omega) dst s

/-- Settles O22: both rows emit the frame of the joined body. -/
theorem genericIsTxEncode : Obligations.GenericIsTxEncode := by
  intro s dst cmd payload hmin hmax hpay
  have hbody : 1 ≤ (cmd ++ payload).length ∧ (cmd ++ payload).length ≤ 53 := by
    rw [List.length_append]
    omega
  calc exec (.txframeGeneric dst (cmd ++ payload)) s
    _ = .next _ := exec_txframeGeneric_ok hbody dst s
    _ = exec (.txEncode dst cmd payload) s := (txEncodeOp_ok (txLengthsOk_iff.mpr ⟨hmin, hmax, hpay⟩) s).symm

end Sys2Proof.Machine
end

section
/-! SUPPORT. The two BCD decoders on every operand (R102, R104, R196, R197), with the nibbles as quotient and remainder of
the byte. -/

namespace Sys2Proof.Machine

/-! ### Nibbles -/

theorem hi_eq (b : Byte) : hi b = b.toNat / 16 := by
  rw [hi, BitVec.extractLsb'_toNat, Nat.shiftRight_eq_div_pow]
  have := b.isLt
  omega

theorem lo_eq (b : Byte) : lo b = b.toNat % 16 := by
  simp [lo]

/-- A byte of two decimal digits, by its number (D14). -/
theorem decimalByte_iff_toNat {b : Byte} : decimalByte b = true ↔ b.toNat / 16 ≤ 9 ∧ b.toNat % 16 ≤ 9 := by
  rw [decimalByte_iff, hi_eq, lo_eq]

/-! ### DEC.FREQ -/

/-- `DEC.FREQ` changes the result only (R196). -/
theorem exec_decFreq (B : ByteSeq) (s : State) :
    exec (.decFreq B) s = .next { s with result := .freqHz (decodeFrequency B) } := by
  rw [exec, execDecFreq, State.raiseIf_freqCause]
  rfl

/-- The 34 bits hold every frequency (R31). -/
theorem decodeFrequency_toNat (B : ByteSeq) : (decodeFrequency B).toNat = frequencyHz B := by
  have := frequencyHz_le B
  rw [decodeFrequency, BitVec.toNat_ofNat]
  omega

theorem frequencyHz_of_length_ne {B : ByteSeq} (h : B.length ≠ 5) : frequencyHz B = 0 :=
  if_pos h

theorem frequencyHz_of_not_decimal {B : ByteSeq} (h : B.all decimalByte = false) : frequencyHz B = 0 := by
  simp [frequencyHz, h]

theorem frequencyHz_of_decimal {B : ByteSeq} (hlen : B.length = 5) (h : B.all decimalByte = true) :
    frequencyHz B = bcdReversed B := by
  simp [frequencyHz, hlen, h]

/-- Settles O51, by the length of the operand and its nibbles. -/
theorem frequencyDecoded : Obligations.FrequencyDecoded := by
  refine ⟨?_, ?_, ?_⟩
  · intro s B hlen
    rw [exec_decFreq, decodeFrequency, frequencyHz_of_length_ne hlen]
    rfl
  · rintro s b0 b1 b2 b3 b4 ⟨b, hmem, hbad⟩
    have hall : [b0, b1, b2, b3, b4].all decimalByte = false :=
      List.all_eq_false.mpr ⟨b, hmem, by rw [decimalByte_iff_toNat]; omega⟩
    rw [exec_decFreq, decodeFrequency, frequencyHz_of_not_decimal hall]
    rfl
  · intro s b0 b1 b2 b3 b4 hgood
    have hall : [b0, b1, b2, b3, b4].all decimalByte = true :=
      List.all_eq_true.mpr fun b hb => decimalByte_iff_toNat.mpr (hgood b hb)
    refine ⟨_, exec_decFreq _ s, ?_⟩
    rw [decodeFrequency_toNat, frequencyHz_of_decimal rfl hall]
    simp only [bcdReversed, bcdByte, hi_eq, lo_eq]
    omega

/-! ### DEC.SPAN -/

/-- `DEC.SPAN` changes the result only (R197). -/
theorem exec_decSpan (S : ByteSeq) (s : State) :
    exec (.decSpan S) s = .next { s with result := .spanHz (decodeSpan S) } := by
  rw [exec, execDecSpan, State.raiseIf_spanCause]
  rfl

/-- The 20 bits hold every span (R32). -/
theorem decodeSpan_toNat (S : ByteSeq) : (decodeSpan S).toNat = spanHzOf S := by
  have := spanHzOf_le S
  rw [decodeSpan, BitVec.toNat_ofNat]
  omega

theorem spanHzOf_of_length_ne {S : ByteSeq} (h : S.length ≠ 6) : spanHzOf S = 0 :=
  if_pos h

theorem spanHzOf_of_not_decimal {b0 b1 b2 b3 b4 b5 : Byte} (h : ¬ (decimalByte b1 = true ∧ decimalByte b2 = true)) :
    spanHzOf [b0, b1, b2, b3, b4, b5] = 0 := by
  simp [spanHzOf, slice, h]

/-- The weights of the digits 2 to 5 (R104). -/
theorem spanHzOf_of_decimal {b0 b1 b2 b3 b4 b5 : Byte} (h1 : decimalByte b1 = true) (h2 : decimalByte b2 = true) :
    spanHzOf [b0, b1, b2, b3, b4, b5] = hi b1 * 1000 + lo b1 * 100 + hi b2 * 100000 + lo b2 * 10000 := by
  simp [spanHzOf, slice, h1, h2]

/-- Settles O53, by the length of the operand and its nibbles 2 to 5. -/
theorem spanDecoded : Obligations.SpanDecoded := by
  refine ⟨?_, ?_, ?_⟩
  · intro s S hlen
    rw [exec_decSpan, decodeSpan, spanHzOf_of_length_ne hlen]
    rfl
  · intro s b0 b1 b2 b3 b4 b5 hbad
    have hnot : ¬ (decimalByte b1 = true ∧ decimalByte b2 = true) := by
      rw [decimalByte_iff_toNat, decimalByte_iff_toNat]
      omega
    rw [exec_decSpan, decodeSpan, spanHzOf_of_not_decimal hnot]
    rfl
  · intro s b0 b1 b2 b3 b4 b5 h2 h3 h4 h5
    refine ⟨_, exec_decSpan _ s, ?_⟩
    rw [decodeSpan_toNat, spanHzOf_of_decimal (decimalByte_iff_toNat.mpr ⟨h2, h3⟩) (decimalByte_iff_toNat.mpr ⟨h4, h5⟩)]
    simp only [hi_eq, lo_eq]

end Sys2Proof.Machine
end

section
/-! SUPPORT. Receiving a whole frame: what the scanner does with the bytes of a frame for the host, what the dispatcher
makes of the candidate, and what the fourteen received-frame rows (R111) therefore do. -/

namespace Sys2Proof.Machine

/-! ### The bytes of a frame -/

@[simp] theorem State.setScan_setScan (s : State) (r r' : Scanner) : (s.setScan r).setScan r' = s.setScan r' := rfl

theorem State.setScan_eq_self {s : State} {r : Scanner} (h : s.scan = r) : s.setScan r = s := by
  subst h
  rfl

theorem rxByteOp_of_quiet {x : Byte} {s : State} {r : Scanner}
    (h : scannerStep s.params.rxbufCap hostAddrValue x s.scan = (r, .quiet)) : rxByteOp x s = (s.setScan r, none) := by
  simp [rxByteOp, h]

theorem rxByteOp_of_accepted {x : Byte} {s : State} {r : Scanner} {A : ByteSeq}
    (h : scannerStep s.params.rxbufCap hostAddrValue x s.scan = (r, .accepted A)) :
    rxByteOp x s =
      ((s.setScan r).setSc (scopeDispatch (frameEmit s.params hostAddrValue A) s.sc),
        some (frameEmit s.params hostAddrValue A)) := by
  simp [rxByteOp, h]

/-- A byte that only moves the scanner, and what follows it. -/
theorem receiveBytes_cons_of_quiet {x : Byte} {s : State} {r : Scanner} (xs : ByteSeq)
    (h : scannerStep s.params.rxbufCap hostAddrValue x s.scan = (r, .quiet)) :
    receiveBytes (x :: xs) s = receiveBytes xs (s.setScan r) := by
  simp [receiveBytes, rxByteOp_of_quiet h]

/-- The preamble and the host's address open a candidate (R151 to R153). -/
theorem receiveBytes_opening {s : State} (h : scannerClear s) (xs : ByteSeq) :
    receiveBytes (preambleByte :: preambleByte :: hostAddrValue :: xs) s =
      receiveBytes xs (s.setScan { rxs := .body, rxbuf := [hostAddrValue] }) := by
  unfold scannerClear at h
  rw [receiveBytes_cons_of_quiet (r := { rxs := .pre1, rxbuf := [] }) _ (by rw [h]; rfl),
    receiveBytes_cons_of_quiet (r := { rxs := .dst, rxbuf := [] }) _ rfl,
    receiveBytes_cons_of_quiet (r := { rxs := .body, rxbuf := [hostAddrValue] }) _ rfl]
  rfl

theorem bufferFull_eq_false {cap : Option Nat} {n m : Nat} (h : fitsCap cap m) (hlt : n < m) :
    bufferFull cap n = false := by
  cases cap with
  | none => rfl
  | some c =>
    have := h c rfl
    simp only [bufferFull, decide_eq_false_iff_not]
    omega

/-- Bytes other than the postamble are collected while they fit (R154). -/
theorem receiveBytes_collect {bs buf : ByteSeq} {s : State} (hfd : postamble ∉ bs)
    (hcap : fitsCap s.params.rxbufCap (buf.length + bs.length)) (xs : ByteSeq) :
    receiveBytes (bs ++ xs) (s.setScan { rxs := .body, rxbuf := buf }) =
      receiveBytes xs (s.setScan { rxs := .body, rxbuf := buf ++ bs }) := by
  induction bs generalizing buf with
  | nil => simp
  | cons b bs ih =>
    obtain ⟨hb, hbs⟩ := not_or.mp (mt List.mem_cons.mpr hfd)
    have hroom : bufferFull s.params.rxbufCap buf.length = false := bufferFull_eq_false hcap (by simp)
    have hstep : scannerStep s.params.rxbufCap hostAddrValue b { rxs := .body, rxbuf := buf } =
        ({ rxs := .body, rxbuf := buf ++ [b] }, .quiet) := by
      simp [scannerStep, Ne.symm hb, hroom]
    rw [List.cons_append, receiveBytes_cons_of_quiet _ hstep]
    have hmore := ih (buf := buf ++ [b]) hbs (by simpa [Nat.add_assoc, Nat.add_comm 1] using hcap)
    simpa using hmore

/-- The postamble ends a candidate that is long enough: its frame is returned (R155, R157). -/
theorem receiveBytes_close {A : ByteSeq} (hlen : 3 ≤ A.length) (s : State) :
    receiveBytes [postamble] (s.setScan { rxs := .body, rxbuf := A }) =
      ((s.setScan Scanner.reset).setSc (scopeDispatch (frameEmit s.params hostAddrValue A) s.sc),
        [frameEmit s.params hostAddrValue A]) := by
  have hstep : scannerStep s.params.rxbufCap hostAddrValue postamble { rxs := .body, rxbuf := A } =
      (Scanner.reset, .accepted A) := by
    simp [scannerStep, closeCandidate, minCandidate, hlen, Scanner.reset]
  rw [receiveBytes, rxByteOp_of_accepted (s := s.setScan { rxs := .body, rxbuf := A }) hstep]
  rfl

/-- Receiving a whole frame for the host with the scanner clear: one frame is returned, and the scanner is clear again
(R150 to R161). -/
theorem receiveBytes_wireFrame {s : State} {src : Byte} {body : ByteSeq} (hclear : scannerClear s) (hbody : body ≠ [])
    (hfd : postamble ∉ src :: body) (hcap : fitsCap s.params.rxbufCap (2 + body.length)) :
    receiveBytes (wireFrame hostAddrValue src body) s =
      (s.setSc (scopeDispatch (frameEmit s.params hostAddrValue (hostAddrValue :: src :: body)) s.sc),
        [frameEmit s.params hostAddrValue (hostAddrValue :: src :: body)]) := by
  have hlen : 3 ≤ (hostAddrValue :: src :: body).length := by
    have := List.length_pos_iff.mpr hbody
    simp only [List.length_cons]
    omega
  calc receiveBytes (wireFrame hostAddrValue src body) s
    _ = receiveBytes (src :: body ++ [postamble]) (s.setScan { rxs := .body, rxbuf := [hostAddrValue] }) :=
      receiveBytes_opening hclear _
    _ = receiveBytes [postamble] (s.setScan { rxs := .body, rxbuf := hostAddrValue :: src :: body }) :=
      receiveBytes_collect hfd (by convert hcap using 1; simp only [List.length_cons, List.length_nil]; omega) _
    _ = _ := by rw [receiveBytes_close hlen, State.setScan_eq_self (r := Scanner.reset) hclear]

/-! ### The frame of a candidate (R157 to R161) -/

/-- The record of a frame of a catalog command (R95, R158 to R160). -/
theorem frameEmit_catalog (p : Config.Params) (k : CatalogCmd) (src : Byte) (payload : ByteSeq) :
    frameEmit p hostAddrValue (hostAddrValue :: src :: (catalogPath k ++ payload)) =
      { dst := 0x00, src := src, echo := src == 0x00, cmd := catalogPath k, payload := payload, known := true,
        scope := scopeOperand p (src == 0x00) (catalogPath k) payload } := by
  have hcmd : splitCmd (catalogPath k ++ payload) = catalogPath k := by simp only [splitCmd, findPath_append]
  simp [frameEmit, hcmd, splitPayload, knownFlag, findPath_append, echoFlag, hostAddrValue]

/-- Of a command other than `27 00` no scope operand is made (R160). -/
theorem scopeOperand_of_ne {k : CatalogCmd} (h : k ≠ .readScope) (p : Config.Params) (echo : Bool) (payload : ByteSeq) :
    scopeOperand p echo (catalogPath k) payload = none := by
  simp [scopeOperand, mt catalogPath_injective h]

/-- The scope operand of a `27 00` frame laid out around its sub-marker (R96, R160). -/
theorem scopeOperand_scopePayload {p : Config.Params} {rest : ScopeRest} (h : rest.before.length = p.scopeSubOff)
    (echo : Bool) (sub : Byte) :
    scopeOperand p echo (catalogPath .readScope) (scopePayload sub rest) =
      if echo then none else some (sub, (scopePayload sub rest).drop p.scopeDataOff) := by
  have hsub : (scopePayload sub rest)[p.scopeSubOff]? = some sub := h ▸ scopePayload_getElem? sub rest
  simp [scopeOperand, hsub]

theorem frameEmit_plain {k : CatalogCmd} (h : k ≠ .readScope) (p : Config.Params) (src : Byte) (payload : ByteSeq) :
    frameEmit p hostAddrValue (hostAddrValue :: src :: (catalogPath k ++ payload)) =
      plainRecord src (catalogPath k) payload := by
  rw [frameEmit_catalog, scopeOperand_of_ne h]
  rfl

theorem frameEmit_scope {p : Config.Params} {rest : ScopeRest} (h : rest.before.length = p.scopeSubOff)
    (src sub : Byte) :
    frameEmit p hostAddrValue (hostAddrValue :: src :: (catalogPath .readScope ++ scopePayload sub rest)) =
      scopeRecord src (scopePayload sub rest) sub ((scopePayload sub rest).drop p.scopeDataOff) := by
  rw [frameEmit_catalog, scopeOperand_scopePayload h]
  simp [scopeRecord, catalogPath]

/-- The catalog has the paths that the statements write out (R94). -/
theorem catalogPath_mem_knownPaths (k : CatalogCmd) : catalogPath k ∈ knownPaths := by
  cases k <;> decide

theorem findPath_eq_none {body : ByteSeq} (h : ∀ K ∈ knownPaths, ¬ K <+: body) : findPath body = none :=
  Option.eq_none_iff_forall_ne_some.mpr fun k hk => h _ (catalogPath_mem_knownPaths k) (findPath_prefix hk)

/-- The record of a frame whose body begins with no catalog path (R95, R159). -/
theorem frameEmit_unknown {cmd : Byte} {payload : ByteSeq} (h : findPath (cmd :: payload) = none) (p : Config.Params)
    (src : Byte) :
    frameEmit p hostAddrValue (hostAddrValue :: src :: cmd :: payload) =
      { dst := 0x00, src := src, echo := src == 0x00, cmd := [cmd], payload := payload, known := false,
        scope := none } := by
  have hcmd : splitCmd (cmd :: payload) = [cmd] := by simp only [splitCmd, h]; rfl
  have hscope : ∀ echo, scopeOperand p echo [cmd] payload = none := fun echo => by simp [scopeOperand, catalogPath]
  simp [frameEmit, hcmd, splitPayload, knownFlag, h, echoFlag, hostAddrValue, hscope]

/-! ### The received-frame rows -/

/-- A received-frame row receives the bytes of its encoding, in every reading (R111, log 3). -/
theorem exec_of_lane_rx {rd : Reading} {i : Instr} (h : (encode rd i).lane = .rx) (s : State) :
    exec i s = receiveRun (encode rd i).bytes s := by
  cases i with
  | rxFreq | rxMode | rxPwron | rxPwroff | rxVolt | rxScopedispOn | rxScopedispOff | rxScopeoutOn | rxScopeoutOff
    | rxScope | rxScopeFirst | rxScopeLast | rxScopeMid | rxUnknown => rfl
  | _ => cases h

/-- A whole frame for the host, received with the scanner clear: its record goes to the reassembler and is returned. -/
theorem receiveFrame_eq {s : State} {src : Byte} {body : ByteSeq} (hclear : scannerClear s) (hbody : body ≠ [])
    (hfd : postamble ∉ src :: body) (hcap : fitsCap s.params.rxbufCap (2 + body.length)) {r : FrameRecord}
    (hr : frameEmit s.params hostAddrValue (hostAddrValue :: src :: body) = r) :
    receiveFrame src body s = .next { s with sc := scopeDispatch r s.sc, result := .frames [r] } := by
  rw [receiveFrame, receiveRun_eq, receiveBytes_wireFrame hclear hbody hfd hcap, hr]
  rfl

/-- The nine plain rows are the catalog commands other than `27 00`. -/
theorem plainRxRows_cases {src : Byte} {payload path : ByteSeq} {row : Instr}
    (h : (row, path) ∈ plainRxRows src payload) :
    ∃ k, k ≠ .readScope ∧ path = catalogPath k ∧ ∀ s, exec row s = receiveFrame src (catalogPath k ++ payload) s := by
  simp only [plainRxRows, List.mem_cons, Prod.mk.injEq, List.not_mem_nil, or_false] at h
  rcases h with ⟨rfl, rfl⟩ | ⟨rfl, rfl⟩ | ⟨rfl, rfl⟩ | ⟨rfl, rfl⟩ | ⟨rfl, rfl⟩ | ⟨rfl, rfl⟩ | ⟨rfl, rfl⟩ |
    ⟨rfl, rfl⟩ | ⟨rfl, rfl⟩
  · exact ⟨.readFreq, nofun, rfl, fun _ => rfl⟩
  · exact ⟨.readMode, nofun, rfl, fun _ => rfl⟩
  · exact ⟨.powerOn, nofun, rfl, fun _ => rfl⟩
  · exact ⟨.powerOff, nofun, rfl, fun _ => rfl⟩
  · exact ⟨.readVolt, nofun, rfl, fun _ => rfl⟩
  · exact ⟨.scopeDispOn, nofun, rfl, fun _ => rfl⟩
  · exact ⟨.scopeDispOff, nofun, rfl, fun _ => rfl⟩
  · exact ⟨.scopeOutOn, nofun, rfl, fun _ => rfl⟩
  · exact ⟨.scopeOutOff, nofun, rfl, fun _ => rfl⟩

/-- The three scope rows are `27 00` frames with their marker (R96). -/
theorem exec_scopeRxRows {src sub mark : Byte} {rest : ScopeRest} {row : Instr}
    (h : (row, mark) ∈ scopeRxRows src sub rest) (s : State) :
    exec row s = receiveFrame src (catalogPath .readScope ++ scopePayload mark rest) s := by
  simp only [scopeRxRows, List.mem_cons, Prod.mk.injEq, List.not_mem_nil, or_false] at h
  rcases h with ⟨rfl, rfl⟩ | ⟨rfl, rfl⟩ | ⟨rfl, rfl⟩ <;> rfl

theorem catalogPath_append_ne_nil (k : CatalogCmd) (payload : ByteSeq) : catalogPath k ++ payload ≠ [] := by
  cases k <;> nofun

theorem postamble_not_mem_catalog {src : Byte} {payload : ByteSeq} (k : CatalogCmd) (h : 0xFD ∉ src :: payload) :
    postamble ∉ src :: (catalogPath k ++ payload) :=
  noPostamble_iff.mp ((noPostamble_cons_append (noPostamble_catalogPath k)).trans (noPostamble_iff.mpr h))

/-- A scope-data frame, received whole with the scanner clear: what its record gives goes to the reassembler, and it is
returned (R96, R160). -/
theorem exec_scopeRxRows_eq {s : State} {src sub mark : Byte} {rest : ScopeRest} {row : Instr} {R : ByteSeq}
    (hrow : (row, mark) ∈ scopeRxRows src sub rest) (hclear : scannerClear s)
    (hlen : rest.before.length = s.params.scopeSubOff) (hR : R = rest.before ++ mark :: rest.after)
    (hfd : 0xFD ∉ src :: R) (hcap : fitsCap s.params.rxbufCap (4 + R.length)) :
    exec row s =
      .next { s with sc := scopeDispatch (scopeRecord src R mark (R.drop s.params.scopeDataOff)) s.sc,
                     result := .frames [scopeRecord src R mark (R.drop s.params.scopeDataOff)] } := by
  subst hR
  rw [exec_scopeRxRows hrow]
  refine receiveFrame_eq hclear (catalogPath_append_ne_nil _ _) (postamble_not_mem_catalog _ hfd) ?_
    (frameEmit_scope hlen src mark)
  convert hcap using 1
  simp only [catalogPath, List.length_append, List.length_cons, List.length_nil]
  omega

/-- A frame that is no echo hands its marker and payload to `SC.FRAME` (R160). -/
theorem scopeDispatch_scopeRecord {src : Byte} (h : src ≠ 0x00) (R : ByteSeq) (sub : Byte) (P : ByteSeq)
    (q : Reassembler) : scopeDispatch (scopeRecord src R sub P) q = scFrame sub P q := by
  simp only [scopeDispatch, scopeRecord, if_neg h]

/-! ### The scope frames of a session (R184 to R189) -/

theorem scFrame_header {q : Reassembler} (h : q.scState = .awaitingHeader) (P : ByteSeq) :
    scFrame markFirst P q = scHeader P q := by
  simp [scFrame, h]

theorem scFrame_append {q : Reassembler} (h : q.scState = .accumulating) {sub : Byte} (hsub : sub ≠ markLast)
    (P : ByteSeq) : scFrame sub P q = { q with acc := q.acc ++ P } := by
  simp [scFrame, h, hsub]

theorem scFrame_terminal {q : Reassembler} (h : q.scState = .accumulating) (P : ByteSeq) :
    scFrame markLast P q = scComplete (q.acc ++ P) q := by
  simp [scFrame, h]

theorem scComplete_ok {A : ByteSeq} (h : A.length = 475) (q : Reassembler) :
    scComplete A q =
      { q with amp := Memory.fill A, ampLen := 475, scResult := .ok, acc := [], scState := .complete } :=
  if_pos h

theorem scComplete_fail {A : ByteSeq} (h : A.length ≠ 475) (q : Reassembler) :
    scComplete A q =
      { q with amp := Memory.empty, ampLen := 0, scResult := .decodeFail, acc := [], scState := .complete } :=
  if_neg h

/-- A filled space reads as the bytes it was filled with (R65, R187). -/
theorem State.readAmp_of_fill {s : State} {A : ByteSeq} (hamp : s.sc.amp = Memory.fill A)
    (hlen : s.sc.ampLen = A.length) (i : Nat) : s.readAmp i = A[i]? := by
  rcases Nat.lt_or_ge i s.sc.ampLen with hi | hi
  · rw [State.readAmp_of_lt hi, hamp, Memory.read_fill]
  · rw [State.readAmp_of_le hi, List.getElem?_eq_none (hlen ▸ hi)]

/-! ### The statements about received frames -/

/-- Settles O29: both runs reach the state of one `receiveBytes` over the row's bytes. -/
theorem receivedRowIsItsBytes : Obligations.ReceivedRowIsItsBytes := by
  intro i rd s hlane
  obtain ⟨r, hrun⟩ := runAll_rxByte (encode rd i).bytes s
  exact ⟨_, _, (exec_of_lane_rx hlane s).trans (receiveRun_eq _ s), hrun, rfl⟩

/-- Settles O30: the frame of a plain row reaches the reassembler with no scope operand. -/
theorem plainFrameReceived : Obligations.PlainFrameReceived := by
  intro s src payload row path hrow hclear hfd hcap
  obtain ⟨k, hk, rfl, hexec⟩ := plainRxRows_cases hrow
  rw [hexec]
  exact receiveFrame_eq hclear (catalogPath_append_ne_nil k payload) (postamble_not_mem_catalog k hfd)
    (by rwa [List.length_append, ← Nat.add_assoc]) (frameEmit_plain hk s.params src payload)

/-- Settles O31. -/
theorem unknownFrameReceived : Obligations.UnknownFrameReceived := by
  intro s src cmd payload hclear hfd hpath hcap
  have hlen : 2 + (cmd :: payload).length = 3 + payload.length := by
    rw [List.length_cons]
    omega
  exact receiveFrame_eq hclear (List.cons_ne_nil cmd payload) hfd (hlen ▸ hcap)
    (frameEmit_unknown (findPath_eq_none hpath) s.params src)

/-- Settles O44: `SC.FRAME` with the first marker in `AwaitingHeader`. -/
theorem headerFrameStarts : Obligations.HeaderFrameStarts := by
  intro s src rest R P hclear hlen hR hP hsrc hfd hcap hstate
  have hrow : (Instr.rxScopeFirst src rest, (0x01 : Byte)) ∈ scopeRxRows src 0x01 rest := .head _
  have hframe : scFrame 0x01 P s.sc = scHeader P s.sc := scFrame_header hstate P
  rw [exec_scopeRxRows_eq hrow hclear hlen hR hfd hcap, ← hP, scopeDispatch_scopeRecord hsrc, hframe]
  rfl

/-- Settles O45: `SC.FRAME` with any other marker than the last in `Accumulating`. -/
theorem intermediateFrameAppends : Obligations.IntermediateFrameAppends := by
  intro s src sub rest row mark R P hrow hmark hclear hlen hR hP hsrc hfd hcap hstate
  rw [exec_scopeRxRows_eq hrow hclear hlen hR hfd hcap, ← hP, scopeDispatch_scopeRecord hsrc,
    scFrame_append hstate hmark]

/-- Settles O46, by the length of the accumulated total. -/
theorem terminalFrameCompletes : Obligations.TerminalFrameCompletes := by
  intro s src rest R P hclear hlen hR hP hsrc hfd hcap hstate
  have hrow : (Instr.rxScopeLast src rest, (0x11 : Byte)) ∈ scopeRxRows src 0x11 rest := .tail _ (.head _)
  have hframe : scFrame 0x11 P s.sc = scComplete (s.sc.acc ++ P) s.sc := scFrame_terminal hstate P
  have hexec := exec_scopeRxRows_eq hrow hclear hlen hR hfd hcap
  rw [← hP, scopeDispatch_scopeRecord hsrc, hframe] at hexec
  refine ⟨_, hexec, rfl, ?_⟩
  by_cases htotal : (s.sc.acc ++ P).length = 475
  · rw [scComplete_ok htotal]
    refine ⟨rfl, rfl, rfl, rfl, rfl, rfl, fun _ => ⟨rfl, rfl, ?_⟩, (absurd htotal ·), rfl, rfl, rfl, rfl, rfl, rfl⟩
    exact State.readAmp_of_fill rfl htotal.symm
  · rw [scComplete_fail htotal]
    exact ⟨rfl, rfl, rfl, rfl, rfl, rfl, (absurd · htotal), fun _ => ⟨rfl, rfl, fun _ => rfl⟩, rfl, rfl, rfl, rfl, rfl, rfl⟩

end Sys2Proof.Machine
end

section
/-! SUPPORT. The frames `scan` returns: each comes from a candidate that the scanner's invariant held for, so it begins
with the host's address and carries no postamble (R41 a and b, R168). -/

namespace Sys2Proof.Machine

/-! ### Scanning byte by byte -/

/-- What scanning a byte more adds: the frame of a candidate, if the byte accepts one (R163). -/
theorem mem_scanFrom_cons {p : Config.Params} {x : Byte} {xs : ByteSeq} {r : Scanner} {f : FrameRecord}
    (h : f ∈ (scanFrom p (x :: xs) r).2) :
    (r.rxs = .body ∧ 3 ≤ r.rxbuf.length ∧ f = frameEmit p hostAddrValue r.rxbuf) ∨
      f ∈ (scanFrom p xs (scannerStep p.rxbufCap hostAddrValue x r).1).2 := by
  simp only [scanFrom] at h
  rcases scannerStep_cases p.rxbufCap hostAddrValue x r with hout | ⟨hout, hbody, -, hlen, -⟩ | ⟨hout, -⟩
  · exact .inr (by simpa only [hout] using h)
  · rw [hout] at h
    exact (List.mem_cons.mp h).imp_left fun hf => ⟨hbody, hlen, hf⟩
  · exact .inr (by simpa only [hout] using h)

/-- Every frame scanned is that of a candidate which satisfies the scanner's invariant. -/
theorem exists_candidate_of_mem_scanFrom {p : Config.Params} (hcap : fitsCap p.rxbufCap 1) {b : ByteSeq} {r : Scanner}
    {f : FrameRecord} (hinv : ScannerInv p.rxbufCap r) (h : f ∈ (scanFrom p b r).2) :
    ∃ A, ScannerInv p.rxbufCap { rxs := .body, rxbuf := A } ∧ 3 ≤ A.length ∧ f = frameEmit p hostAddrValue A := by
  induction b generalizing r with
  | nil => cases h
  | cons x xs ih =>
    rcases mem_scanFrom_cons h with ⟨hbody, hlen, hf⟩ | hmore
    · obtain ⟨st, A⟩ := r
      subst hbody
      exact ⟨A, hinv, hlen, hf⟩
    · exact ih (scannerStep_scannerInv hcap x hinv) hmore

/-! ### The frame of a candidate -/

/-- A command path has 1 to 3 bytes: it is a catalog path or one byte (R95). -/
theorem splitCmd_length {Y : ByteSeq} (h : Y ≠ []) : 1 ≤ (splitCmd Y).length ∧ (splitCmd Y).length ≤ 3 := by
  unfold splitCmd
  split
  · next k _ => cases k <;> decide
  · have := List.length_pos_iff.mpr h
    rw [List.length_take]
    omega

/-- Command path and payload of a frame are its candidate's bytes after the addresses (R159). -/
theorem frameEmit_cmd_append_payload (p : Config.Params) (host : Byte) (A : ByteSeq) :
    (frameEmit p host A).cmd ++ (frameEmit p host A).payload = A.drop 2 :=
  splitCmd_append_splitPayload (A.drop 2)

/-- Settles O36: the invariant of the scanner at the byte that accepts the candidate. -/
theorem scannedFramesAreForHost : Obligations.ScannedFramesAreForHost := by
  intro p b f hf
  have hcap : fitsCap (unbounded p).rxbufCap 1 := fitsCap_succ (cap := none) (n := 0) nofun
  have hreset : ScannerInv (unbounded p).rxbufCap Scanner.reset := scannerInv_of_empty _ nofun rfl
  obtain ⟨A, hinv, hlen, rfl⟩ := exists_candidate_of_mem_scanFrom hcap hreset hf
  have hhost : A.head? = some 0x00 := hinv.startsWithHost rfl
  have hfd : 0xFD ∉ A := hinv.noPostamble rfl
  have hdst : A.getD 0 0 = 0x00 := by rw [List.getD_eq_getElem?_getD, ← List.head?_eq_getElem?, hhost]; rfl
  have hbody : A.drop 2 ≠ [] := by
    rw [← List.length_pos_iff, List.length_drop]
    omega
  obtain ⟨hmin, hmax⟩ := splitCmd_length hbody
  refine ⟨hdst, hmin, hmax, ?_⟩
  rw [frameEmit_cmd_append_payload]
  exact mt List.mem_of_mem_drop hfd

end Sys2Proof.Machine
end

section
/-! SUPPORT. A catalog form on the wire: the frame it emits goes to `RIG_ADDR` with the host's own address as source
(R108, R125), so on the receive stream it is a frame for the host exactly when `RIG_ADDR` is the host's address. Any
other frame passes a clear scanner without a trace, unless one of its bytes looks like a preamble (R151 to R153). -/

namespace Sys2Proof.Machine

/-! ### The catalog forms -/

/-- The rows that the statements write out are the catalog with its forms (R94, R134 to R143). -/
theorem catalogRows_eq : catalogRows = catalog.map fun k => (catalogForm k, catalogPath k) := rfl

theorem exec_catalogForm (k : CatalogCmd) (s : State) : exec (catalogForm k) s = catalogOp k s := by
  cases k <;> rfl

/-- A row of the catalog emits its path in a frame to `RIG_ADDR` (R108, R134 to R143). -/
theorem exec_catalogRows {form : Instr} {path : ByteSeq} (h : (form, path) ∈ catalogRows) (s : State) :
    ∃ k, path = catalogPath k ∧
      exec form s = .next { s with tx := s.tx ++ wireFrame s.cfg.rigAddr hostAddrValue (catalogPath k),
                                   result := .txBytes (wireFrame s.cfg.rigAddr hostAddrValue (catalogPath k)) } := by
  rw [catalogRows_eq] at h
  obtain ⟨k, -, hk⟩ := List.mem_map.mp h
  obtain ⟨rfl, rfl⟩ := Prod.mk.inj hk
  exact ⟨k, rfl, (exec_catalogForm k s).trans (catalogOp_eq k s)⟩

/-! ### A frame for somebody else -/

/-- With no preamble byte among them, bytes pass a clear scanner without a trace (R151). -/
theorem receiveBytes_of_no_preamble {bs : ByteSeq} {s : State} (hclear : scannerClear s) (hbs : preambleByte ∉ bs) :
    receiveBytes bs s = (s, []) := by
  induction bs with
  | nil => rfl
  | cons x xs ih =>
    obtain ⟨hx, hxs⟩ := not_or.mp (mt List.mem_cons.mpr hbs)
    have hstep : scannerStep s.params.rxbufCap hostAddrValue x s.scan = (s.scan, .quiet) := by
      unfold scannerClear at hclear
      simp [scannerStep, hclear, huntOn, Ne.symm hx]
    rw [receiveBytes_cons_of_quiet xs hstep, State.setScan_eq_self rfl, ih hxs]

/-- A destination that is neither the host's address nor a further preamble byte sends the scanner back to hunting
(R153). -/
theorem receiveBytes_opening_other {dst : Byte} {s : State} (hclear : scannerClear s) (hhost : dst ≠ hostAddrValue)
    (hpre : dst ≠ preambleByte) (xs : ByteSeq) :
    receiveBytes (preambleByte :: preambleByte :: dst :: xs) s = receiveBytes xs s := by
  have hdst : scannerStep s.params.rxbufCap hostAddrValue dst { rxs := .dst, rxbuf := [] } = (Scanner.reset, .quiet) := by
    simp [scannerStep, hhost, hpre, Scanner.reset]
  calc receiveBytes (preambleByte :: preambleByte :: dst :: xs) s
    _ = receiveBytes (preambleByte :: dst :: xs) (s.setScan { rxs := .pre1, rxbuf := [] }) :=
      receiveBytes_cons_of_quiet _ (by rw [hclear]; rfl)
    _ = receiveBytes (dst :: xs) (s.setScan { rxs := .dst, rxbuf := [] }) := receiveBytes_cons_of_quiet _ rfl
    _ = receiveBytes xs (s.setScan Scanner.reset) := receiveBytes_cons_of_quiet _ hdst
    _ = receiveBytes xs s := by rw [State.setScan_eq_self (r := Scanner.reset) hclear]

/-- A frame for another address returns nothing and changes nothing (R153). -/
theorem receiveBytes_wireFrame_other {dst src : Byte} {body : ByteSeq} {s : State} (hclear : scannerClear s)
    (hhost : dst ≠ hostAddrValue) (hpre : dst ≠ preambleByte) (hbody : preambleByte ∉ src :: body) :
    receiveBytes (wireFrame dst src body) s = (s, []) := by
  have htail : preambleByte ∉ src :: body ++ [postamble] := by
    rw [List.mem_append, not_or]
    exact ⟨hbody, by decide⟩
  calc receiveBytes (wireFrame dst src body) s
    _ = receiveBytes (src :: body ++ [postamble]) s := receiveBytes_opening_other hclear hhost hpre _
    _ = (s, []) := receiveBytes_of_no_preamble hclear htail

/-! ### The echo of a catalog form -/

/-- The host's own frame is an echo, of which no scope operand is made, whatever its command (R158, R160). -/
theorem frameEmit_echo (p : Config.Params) (k : CatalogCmd) :
    frameEmit p hostAddrValue (hostAddrValue :: hostAddrValue :: catalogPath k) =
      plainRecord 0x00 (catalogPath k) [] := by
  have h := frameEmit_catalog p k hostAddrValue []
  rwa [List.append_nil] at h

theorem catalogPath_length_le (k : CatalogCmd) : (catalogPath k).length ≤ 3 := by
  cases k <;> decide

/-- The longest catalog frame fits every legal candidate buffer (R7, R94). -/
theorem fitsCap_catalog {p : Config.Params} (h : p.legal = true) (k : CatalogCmd) :
    fitsCap p.rxbufCap (2 + (catalogPath k).length) := by
  intro c hc
  have hcap := rxbufCap_ge_of_legal h hc
  have hpath := catalogPath_length_le k
  omega

/-- The echo is returned, and reaches no register (R158). -/
theorem receiveBytes_echo {s : State} (hclear : scannerClear s) (hlegal : s.params.legal = true) (k : CatalogCmd) :
    receiveBytes (wireFrame hostAddrValue hostAddrValue (catalogPath k)) s =
      (s, [plainRecord 0x00 (catalogPath k) []]) := by
  have hbody : catalogPath k ≠ [] := by cases k <;> nofun
  have hfd : postamble ∉ hostAddrValue :: catalogPath k := by cases k <;> decide
  rw [receiveBytes_wireFrame hclear hbody hfd (fitsCap_catalog hlegal k), frameEmit_echo]
  rfl

/-- Settles O37: the form's frame is for the host exactly when `RIG_ADDR` is the host's address. -/
theorem ownFrameEchoed : Obligations.OwnFrameEchoed := by
  intro s form path hrow hclear hlegal
  obtain ⟨k, rfl, hexec⟩ := exec_catalogRows hrow s
  refine ⟨_, _, hexec, rfl, fun hself => ?_, fun hother hpre => ?_⟩
  · have hsame : s.cfg.rigAddr = hostAddrValue := hself
    rw [hsame, receiveBytes_echo]
    exacts [⟨rfl, rfl⟩, hclear, hlegal]
  · have hquiet : preambleByte ∉ hostAddrValue :: catalogPath k := by cases k <;> decide
    rw [receiveBytes_wireFrame_other]
    exacts [⟨rfl, rfl⟩, hclear, hother, hpre, hquiet]

end Sys2Proof.Machine
end

section
/-! SUPPORT. `RESET` and `CFG.PROFILE`: the search of the profile table (R121, R122), and what the operation does with
what the search finds (R121, R123, R254). -/

namespace Sys2Proof.Machine

/-! ### The search of the profile table -/

/-- The first row that bears a name is the one found (R122). -/
theorem findProfile_append_cons {above : List Config.ProfileRow} {row : Config.ProfileRow}
    (h : ∀ r ∈ above, r.modelName ≠ row.modelName) (below : List Config.ProfileRow) :
    findProfile (above ++ row :: below) row.modelName = some row := by
  have habove : findProfile above row.modelName = none := List.find?_eq_none.mpr (by simpa using h)
  unfold findProfile at habove ⊢
  rw [List.find?_append, habove, Option.none_or, List.find?_cons_of_pos]
  exact beq_self_eq_true row.modelName

theorem findProfile_eq_none_iff {table : List Config.ProfileRow} {name : ByteSeq} :
    findProfile table name = none ↔ ∀ r ∈ table, r.modelName ≠ name := by
  simp [findProfile]

/-! ### The operations -/

theorem exec_reset (s : State) : exec .reset s = .next (resetState s) := rfl

/-- A name that is found loads its row (R121). -/
theorem exec_cfgProfile_known {s : State} {name : ByteSeq} {row : Config.ProfileRow}
    (h : findProfile s.params.profiles name = some row) :
    exec (.cfgProfile name) s =
      .next { s with cfg := loadProfile row s.cfg, result := .profile row.busAddress row.maxBaudRate true } := by
  simp only [exec, execCfgProfile, h]
  rfl

/-- A name that is not found loads the default profile and sets `CFG_UNKNOWN` (R123, R254). -/
theorem exec_cfgProfile_unknown {s : State} {name : ByteSeq} (h : findProfile s.params.profiles name = none) :
    exec (.cfgProfile name) s =
      .next { s with cfg := loadProfile defaultProfile s.cfg
                     err := errSet .cfgUnknown s.err
                     result := .profile defaultProfile.busAddress defaultProfile.maxBaudRate false } := by
  simp only [exec, execCfgProfile, h]
  rfl

/-! ### The statements about RESET and CFG.PROFILE -/

/-- Settles O14: the registers are those of the state after reset, written out. -/
theorem resetOperation : Obligations.ResetOperation := by
  intro s
  refine ⟨resetState s, exec_reset s, ?_⟩
  exact ⟨rfl, rfl, rfl, rfl, rfl, rfl, rfl, rfl, rfl, rfl, rfl, rfl, rfl, rfl, fun _ => rfl, rfl, rfl, rfl, rfl, rfl⟩

/-- Settles O15: the row is the one found, in any table and for each name of the default table. -/
theorem profileKnownName : Obligations.ProfileKnownName := by
  constructor
  · intro s above below row htable hfirst
    exact exec_cfgProfile_known (htable ▸ findProfile_append_cons hfirst below)
  · intro s htable
    have found : ∀ {name row}, findProfile profileRom name = some row → findProfile s.params.profiles name = some row :=
      fun h => htable ▸ h
    exact ⟨exec_cfgProfile_known (row := profileRom[0]) (found rfl),
      exec_cfgProfile_known (row := profileRom[1]) (found rfl),
      exec_cfgProfile_known (row := profileRom[2]) (found rfl)⟩

/-- Settles O16: no row is found. -/
theorem profileUnknownName : Obligations.ProfileUnknownName :=
  fun _ _ habsent => exec_cfgProfile_unknown (findProfile_eq_none_iff.mpr habsent)

end Sys2Proof.Machine
end

section
/-! SUPPORT. `TX.ENCODE` on every length of command path and payload, and the catalog forms, with their frames written
out byte by byte (R90, R130 to R143). -/

namespace Sys2Proof.Machine

/-! ### The frame on the wire -/

/-- The frame of a command path and a payload, written out (R68, R90, R130). -/
theorem wireFrame_append (dst src : Byte) (cmd payload : ByteSeq) :
    wireFrame dst src (cmd ++ payload) = [0xFE, 0xFE, dst, src] ++ cmd ++ payload ++ [0xFD] := by
  rw [wireFrame, preambleByte, postamble, List.append_assoc [_, _, _, _] cmd]

theorem length_wireFrame (dst src : Byte) (body : ByteSeq) : (wireFrame dst src body).length = 5 + body.length := by
  simp only [wireFrame, List.length_append, List.length_cons, List.length_nil]
  omega

/-! ### The statements about TX.ENCODE and the catalog forms -/

/-- Settles O19: the length check splits the cases, and in the first the frame emitted is the one written out. -/
theorem txEncodeFrame : Obligations.TxEncodeFrame := by
  intro s dst cmd payload
  constructor
  · intro hlen
    rw [← wireFrame_append, length_wireFrame, List.length_append, Nat.add_assoc]
    exact ⟨txEncodeOp_ok (txLengthsOk_iff.mpr hlen) s, rfl⟩
  · intro hlen
    have hbad : txLengthsOk cmd payload = false := by
      rw [Bool.eq_false_iff, ne_eq, txLengthsOk_iff]
      omega
    exact txEncodeOp_refused hbad dst s

/-- Settles O20: a row of the catalog emits the frame of its path to `RIG_ADDR`. -/
theorem catalogFormsEmit : Obligations.CatalogFormsEmit := by
  intro s form path hrow
  obtain ⟨k, rfl, hexec⟩ := exec_catalogRows hrow s
  exact hexec

end Sys2Proof.Machine
end

section
/-! SUPPORT. One `RX.BYTE` on the whole state, by what the scanner hands on (R150): the rows of the scanner's table
(R151 to R156), and the frame of an accepted candidate with what it gives the reassembler (R157 to R161). -/

namespace Sys2Proof.Machine

/-! ### What the scanner hands on -/

theorem exec_rxByte_of_quiet {x : Byte} {s : State} {r : Scanner}
    (h : scannerStep s.params.rxbufCap hostAddrValue x s.scan = (r, .quiet)) :
    exec (.rxByte x) s = .next { s with scan := r, result := .none } := by
  rw [exec_rxByte, rxByteOp_of_quiet h]
  rfl

theorem exec_rxByte_of_overrun {x : Byte} {s : State} {r : Scanner}
    (h : scannerStep s.params.rxbufCap hostAddrValue x s.scan = (r, .overrun)) :
    exec (.rxByte x) s = .next { s with scan := r, err := errSet .rxOverrun s.err, result := .none } := by
  have hop : rxByteOp x s = ((s.setScan r).setErr (errSet .rxOverrun s.err), none) := by
    simp [rxByteOp, h, State.raise_eq_setErr (e := .rxOverrun) (b := .rxOverrun) rfl]
  rw [exec_rxByte, hop]
  rfl

theorem scannerStep_close {A : ByteSeq} (hlen : 3 ≤ A.length) (cap : Option Nat) :
    scannerStep cap hostAddrValue postamble { rxs := .body, rxbuf := A } = (Scanner.reset, .accepted A) := by
  simp [scannerStep, closeCandidate, hlen, Scanner.reset]

/-- The postamble after a candidate of three bytes or more: its frame goes to the reassembler and is returned (R155,
R157). -/
theorem exec_rxByte_postamble {s : State} {dst src : Byte} {Y : ByteSeq}
    (hscan : s.scan = { rxs := .body, rxbuf := dst :: src :: Y }) (hY : Y ≠ []) {r : FrameRecord}
    (hr : frameEmit s.params hostAddrValue (dst :: src :: Y) = r) :
    exec (.rxByte 0xFD) s =
      .next { s with scan := Scanner.reset, sc := scopeDispatch r s.sc, result := .frame r } := by
  have hlen : 3 ≤ (dst :: src :: Y).length := Nat.add_le_add_right (List.length_pos_iff.mpr hY) 2
  have hstep : scannerStep s.params.rxbufCap hostAddrValue postamble s.scan = (Scanner.reset, .accepted _) :=
    hscan ▸ scannerStep_close hlen _
  have hop : rxByteOp 0xFD s = _ := rxByteOp_of_accepted hstep
  rw [exec_rxByte, hop, hr]
  rfl

/-! ### Command path and payload of a body (R95, R159) -/

theorem knownPaths_eq : knownPaths = catalog.map catalogPath := rfl

theorem splitCmd_catalog (k : CatalogCmd) (payload : ByteSeq) : splitCmd (catalogPath k ++ payload) = catalogPath k := by
  simp only [splitCmd, findPath_append]

theorem splitPayload_catalog (k : CatalogCmd) (payload : ByteSeq) : splitPayload (catalogPath k ++ payload) = payload := by
  rw [splitPayload, splitCmd_catalog, List.drop_left]

/-- A body that begins with a path of the catalog is split after it. -/
theorem split_of_known {K Y : ByteSeq} (hK : K ∈ knownPaths) (hpre : K <+: Y) :
    splitCmd Y = K ∧ splitPayload Y = Y.drop K.length ∧ knownFlag Y = true := by
  rw [knownPaths_eq] at hK
  obtain ⟨k, -, rfl⟩ := List.mem_map.mp hK
  obtain ⟨payload, rfl⟩ := hpre
  exact ⟨splitCmd_catalog k payload, by rw [splitPayload, splitCmd_catalog], by rw [knownFlag, findPath_append]; rfl⟩

/-- Any other body is split after its first byte. -/
theorem split_of_unknown {Y : ByteSeq} (h : ∀ K ∈ knownPaths, ¬ K <+: Y) (hY : Y ≠ []) :
    splitCmd Y = Y.take 1 ∧ splitPayload Y = Y.drop 1 ∧ knownFlag Y = false := by
  have hnone := findPath_eq_none h
  have hcmd : splitCmd Y = Y.take 1 := by simp only [splitCmd, hnone]
  have hlen : (Y.take 1).length = 1 := List.length_take_of_le (List.length_pos_iff.mpr hY)
  exact ⟨hcmd, by rw [splitPayload, hcmd, hlen], by rw [knownFlag, hnone]; rfl⟩

/-! ### The scope operand (R160) -/

theorem scopeOperand_echo (p : Config.Params) (cmd payload : ByteSeq) : scopeOperand p true cmd payload = none := rfl

theorem scopeOperand_short {p : Config.Params} {payload : ByteSeq} (h : payload.length ≤ p.scopeSubOff) (echo : Bool)
    (cmd : ByteSeq) : scopeOperand p echo cmd payload = none := by
  simp [scopeOperand, List.getElem?_eq_none h]

theorem scopeOperand_of_sub {p : Config.Params} {payload : ByteSeq} {sub : Byte}
    (h : payload[p.scopeSubOff]? = some sub) :
    scopeOperand p false (catalogPath .readScope) payload = some (sub, payload.drop p.scopeDataOff) := by
  simp [scopeOperand, h]

/-- A body that does not begin with `27 00` has another command path, so it gives no scope operand. -/
theorem scopeOperand_of_not_scope {Y : ByteSeq} (h : ¬ catalogPath .readScope <+: Y) (p : Config.Params) (echo : Bool)
    (payload : ByteSeq) : scopeOperand p echo (splitCmd Y) payload = none := by
  have hne : splitCmd Y ≠ catalogPath .readScope := fun hcmd => h (hcmd ▸ ⟨_, splitCmd_append_splitPayload Y⟩)
  simp [scopeOperand, hne]

/-- The scope operand of a candidate's record. -/
theorem scope_frameEmit (p : Config.Params) (dst src : Byte) (Y : ByteSeq) :
    (frameEmit p hostAddrValue (dst :: src :: Y)).scope =
      scopeOperand p (src == 0x00) (splitCmd Y) (splitPayload Y) := rfl

/-- Scope dispatch is `SC.FRAME` of the operand, if there is one (R160). -/
theorem scopeDispatch_of_none {r : FrameRecord} (h : r.scope = none) (q : Reassembler) : scopeDispatch r q = q := by
  simp only [scopeDispatch, h]

theorem scopeDispatch_of_some {r : FrameRecord} {sub : Byte} {P : ByteSeq} (h : r.scope = some (sub, P))
    (q : Reassembler) : scopeDispatch r q = scFrame sub P q := by
  simp only [scopeDispatch, h]

/-! ### The statements about one received byte -/

/-- Settles O27. -/
theorem rxFlushClears : Obligations.RxFlushClears := fun _ => rfl

/-- Settles O24, row by row: every step of the scanner but the overrun is quiet. -/
theorem scannerTable : Obligations.ScannerTable := by
  intro s x
  refine ⟨fun hst => ?hunt, fun hst => ?pre1, fun hst hx => ?host, fun hst hx => ?other, fun hst hx hroom => ?collect,
    fun hst hx hfull => ?overrun, fun hst hx hlen => ?short⟩
  case hunt => exact exec_rxByte_of_quiet (by simp only [scannerStep, hst]; rfl)
  case pre1 => exact exec_rxByte_of_quiet (by simp only [scannerStep, hst]; rfl)
  case host => exact exec_rxByte_of_quiet (by simp only [scannerStep, hst, hx]; rfl)
  case other =>
    have hhost : x ≠ hostAddrValue := hx
    exact exec_rxByte_of_quiet (by simp only [scannerStep, hst, if_neg hhost]; rfl)
  case collect =>
    have hpost : x ≠ postamble := hx
    have hnot : bufferFull s.params.rxbufCap s.scan.rxbuf.length = false :=
      bufferFull_eq_false (m := s.scan.rxbuf.length + 1) (fun c hc => hroom c hc) (Nat.lt_succ_self _)
    exact exec_rxByte_of_quiet (by simp [scannerStep, hst, hpost, hnot])
  case overrun =>
    have hpost : x ≠ postamble := hx
    have hstep : scannerStep s.params.rxbufCap hostAddrValue x s.scan = (huntOn x, .overrun) := by
      simp [scannerStep, hst, hpost, bufferFull, hfull]
    exact exec_rxByte_of_overrun hstep
  case short =>
    have hshort : ¬ minCandidate ≤ s.scan.rxbuf.length := Nat.not_le.mpr hlen
    have hpost : x = postamble := hx
    exact exec_rxByte_of_quiet (by simp [scannerStep, hst, hpost, closeCandidate, hshort])

/-- Settles O25: the record's command path and payload are the split of the candidate's body. -/
theorem acceptedCandidate : Obligations.AcceptedCandidate := by
  intro s dst src Y hscan hY
  exact ⟨_, _, exec_rxByte_postamble hscan hY rfl, rfl, rfl, rfl, rfl, fun K hK hpre => split_of_known hK hpre,
    fun h => split_of_unknown h hY, rfl, rfl, rfl, rfl, rfl, rfl⟩

/-- Settles O26, by the scope operand of the body's command path and payload. (The name of the statement is that of the
dispatcher's definition.) -/
theorem scopeDispatchOfAccepted : Obligations.ScopeDispatch := by
  constructor
  · intro s dst src R hscan
    have hemit : (frameEmit s.params hostAddrValue (dst :: src :: (catalogPath .readScope ++ R))).scope =
        scopeOperand s.params (src == 0x00) (catalogPath .readScope) R := by
      rw [scope_frameEmit, splitCmd_catalog, splitPayload_catalog]
    refine ⟨_, _, exec_rxByte_postamble hscan (List.cons_ne_nil _ _) rfl, rfl, fun hsrc sub hsub => ?_, fun hnot => ?_⟩
    · have hscope := hemit.trans ((beq_eq_false_iff_ne.mpr hsrc).symm ▸ scopeOperand_of_sub hsub)
      exact ⟨hscope, scopeDispatch_of_some hscope s.sc⟩
    · have hscope := hemit.trans <| by
        rcases hnot with rfl | hshort
        · exact scopeOperand_echo s.params _ R
        · exact scopeOperand_short hshort _ _
      exact ⟨hscope, scopeDispatch_of_none hscope s.sc⟩
  · intro s dst src Y hscan hY hpath
    have hscope := (scope_frameEmit s.params dst src Y).trans (scopeOperand_of_not_scope hpath _ _ _)
    exact ⟨_, _, exec_rxByte_postamble hscan hY rfl, rfl, hscope, scopeDispatch_of_none hscope s.sc⟩

end Sys2Proof.Machine
end

section
/-! SUPPORT. The scope-data frames that leave the reassembler as it is: those without a sub-marker, echoes, and those its
state ignores (R160, R183, R185, R190). -/

namespace Sys2Proof.Machine

/-- `SC.FRAME` changes nothing outside a session, and only a header moves `AwaitingHeader` (R183, R185, R190). -/
theorem scFrame_ignored {sub : Byte} {q : Reassembler}
    (h : q.scState = .idle ∨ q.scState = .complete ∨ (q.scState = .awaitingHeader ∧ sub ≠ markFirst)) (P : ByteSeq) :
    scFrame sub P q = q := by
  rcases h with hst | hst | ⟨hst, hsub⟩
  · simp only [scFrame, hst]
  · simp only [scFrame, hst]
  · simp only [scFrame, hst, if_neg hsub]

/-- A `27 00` frame too short for a sub-marker has a plain record (R96, R160). -/
theorem frameEmit_scope_short {p : Config.Params} {payload : ByteSeq} (h : payload.length ≤ p.scopeSubOff) (src : Byte) :
    frameEmit p hostAddrValue (hostAddrValue :: src :: (catalogPath .readScope ++ payload)) =
      plainRecord src (catalogPath .readScope) payload := by
  rw [frameEmit_catalog, scopeOperand_short h]
  rfl

/-- Such a frame, received whole with the scanner clear, is returned and changes nothing else. -/
theorem exec_rxScope_eq {s : State} {frame : ShortScope} (hclear : scannerClear s)
    (hlen : frame.payload.length ≤ s.params.scopeSubOff) (hfd : 0xFD ∉ frame.src :: frame.payload)
    (hcap : fitsCap s.params.rxbufCap (4 + frame.payload.length)) :
    exec (.rxScope frame) s =
      .next { s with result := .frames [plainRecord frame.src (catalogPath .readScope) frame.payload] } := by
  refine receiveFrame_eq hclear (catalogPath_append_ne_nil _ _) (postamble_not_mem_catalog _ hfd) ?_
    (frameEmit_scope_short hlen frame.src)
  convert hcap using 1
  simp only [catalogPath, List.length_append, List.length_cons, List.length_nil]
  omega

/-- Settles O43: an echo has no scope operand, and any other frame is one that `SC.FRAME` ignores. -/
theorem scopeFrameIgnored : Obligations.ScopeFrameIgnored := by
  refine ⟨fun s frame hclear hlen hfd hcap => exec_rxScope_eq hclear hlen hfd hcap, ?_⟩
  intro s src sub rest row mark R hrow hclear hlen hR hfd hcap hignored
  have hkept : scopeDispatch (scopeRecord src R mark (R.drop s.params.scopeDataOff)) s.sc = s.sc := by
    by_cases hsrc : src = 0x00
    · exact scopeDispatch_of_none (if_pos hsrc) s.sc
    · rw [scopeDispatch_scopeRecord hsrc]
      exact scFrame_ignored (hignored.resolve_left hsrc) _
  rw [exec_scopeRxRows_eq hrow hclear hlen hR hfd hcap, hkept]

end Sys2Proof.Machine
end

section
/-! SUPPORT. The scanner run on its own over a buffer (R163): it may be cut anywhere, it returns what `RX.BYTE` of each
byte returns, and where the first candidate of a buffer opens and closes (R151 to R156). -/

namespace Sys2Proof.Machine

/-! ### Scanning is receiving, in parts or at once -/

/-- `RX.BYTE` of each byte moves the scanner, and returns frames, as the scanner does on its own (R150, R163). -/
theorem scanFrom_eq_receiveBytes (b : ByteSeq) (s : State) :
    scanFrom s.params b s.scan = ((receiveBytes b s).1.scan, (receiveBytes b s).2) := by
  induction b generalizing s with
  | nil => rfl
  | cons x xs ih =>
    have hmore := ih (rxByteOp x s).1
    rw [rxByteOp_params, rxByteOp_scan] at hmore
    simp only [scanFrom, hmore, receiveBytes, rxByteOp, HostAddr.value_eq]
    cases (scannerStep s.params.rxbufCap hostAddrValue x s.scan).2 <;> rfl

/-- The scanner on its own, from anywhere, as a run of `RX.BYTE` operations. -/
theorem scanFrom_eq (p : Config.Params) (b : ByteSeq) (r : Scanner) :
    scanFrom p b r =
      ((receiveBytes b ({ State.reset with params := p }.setScan r)).1.scan,
        (receiveBytes b ({ State.reset with params := p }.setScan r)).2) :=
  scanFrom_eq_receiveBytes b ({ State.reset with params := p }.setScan r)

theorem scanFrom_append (p : Config.Params) (b c : ByteSeq) (r : Scanner) :
    scanFrom p (b ++ c) r =
      ((scanFrom p c (scanFrom p b r).1).1, (scanFrom p b r).2 ++ (scanFrom p c (scanFrom p b r).1).2) := by
  induction b generalizing r with
  | nil => rfl
  | cons x xs ih =>
    simp only [List.cons_append, scanFrom, ih]
    cases (scannerStep p.rxbufCap hostAddrValue x r).2 <;> rfl

/-- Settles O32. -/
theorem scanMayBeCutAnywhere : Obligations.ScanMayBeCutAnywhere := by
  intro p b c
  simp only [scan, scanResidue, scanFrom_append, and_self]

/-- Settles O33: by induction on the buffer, and the run of operations reaches the state of one `receiveBytes`. -/
theorem receivingIsScanning : Obligations.ReceivingIsScanning := by
  intro s b
  rw [scanFrom_eq_receiveBytes]
  exact ⟨rfl, rfl, runAll_rxByte b s⟩

/-! ### Hunting for a candidate -/

/-- What opens a candidate: the preamble and the host's address (R151 to R153). -/
def opening : ByteSeq := [preambleByte, preambleByte, hostAddrValue]

/-- The scanner after bytes that open no candidate: it remembers whether they end in one or two preamble bytes. -/
def hunted (u : ByteSeq) : Scanner :=
  { rxs := if [preambleByte, preambleByte] <:+ u then .dst else if [preambleByte] <:+ u then .pre1 else .hunt
    rxbuf := [] }

theorem concat_suffix_concat_iff {t u : ByteSeq} {a x : Byte} : t ++ [a] <:+ u ++ [x] ↔ a = x ∧ t <:+ u := by
  rw [← List.reverse_prefix, List.reverse_concat, List.reverse_concat, List.cons_prefix_cons, List.reverse_prefix]

theorem hunted_concat_preamble (u : ByteSeq) :
    hunted (u ++ [preambleByte]) = { rxs := if [preambleByte] <:+ u then .dst else .pre1, rxbuf := [] } := by
  have htwo : [preambleByte, preambleByte] <:+ u ++ [preambleByte] ↔ [preambleByte] <:+ u :=
    (concat_suffix_concat_iff (t := [preambleByte])).trans (and_iff_right rfl)
  simp only [hunted, htwo, List.suffix_append, if_true]

theorem hunted_concat_of_ne {x : Byte} (hx : x ≠ preambleByte) (u : ByteSeq) : hunted (u ++ [x]) = Scanner.reset := by
  have hnot : ∀ t, ¬ t ++ [preambleByte] <:+ u ++ [x] := fun _ ht => hx (concat_suffix_concat_iff.mp ht).1.symm
  have htwo : ¬ [preambleByte, preambleByte] <:+ u ++ [x] := hnot [preambleByte]
  have hone : ¬ [preambleByte] <:+ u ++ [x] := hnot []
  simp only [hunted, htwo, hone, if_false, Scanner.reset]

/-- A byte that completes no opening (R151 to R153). -/
theorem scannerStep_hunted {u : ByteSeq} {x : Byte} (h : ¬ opening <:+ u ++ [x]) (cap : Option Nat) :
    scannerStep cap hostAddrValue x (hunted u) = (hunted (u ++ [x]), .quiet) := by
  have hopen : opening <:+ u ++ [x] ↔ hostAddrValue = x ∧ [preambleByte, preambleByte] <:+ u :=
    concat_suffix_concat_iff (t := [preambleByte, preambleByte])
  have hhost : [preambleByte, preambleByte] <:+ u → x ≠ hostAddrValue := fun hdst hx => h (hopen.mpr ⟨hx.symm, hdst⟩)
  have hweak : [preambleByte, preambleByte] <:+ u → [preambleByte] <:+ u := (List.suffix_cons _ _).trans
  by_cases hx : x = preambleByte
  · subst hx
    rw [hunted_concat_preamble]
    by_cases hdst : [preambleByte, preambleByte] <:+ u
    · simp [hunted, scannerStep, hdst, hweak hdst, hhost hdst]
    · by_cases hpre : [preambleByte] <:+ u <;> simp [hunted, scannerStep, huntOn, hdst, hpre]
  · rw [hunted_concat_of_ne hx]
    by_cases hdst : [preambleByte, preambleByte] <:+ u
    · simp [hunted, scannerStep, hdst, hhost hdst, hx, Scanner.reset]
    · by_cases hpre : [preambleByte] <:+ u <;> simp [hunted, scannerStep, huntOn, hdst, hpre, hx, Scanner.reset]

/-- Bytes that open no candidate return nothing, whatever stands among them (R151 to R153). -/
theorem scanFrom_of_no_opening {u : ByteSeq} (h : ¬ opening <:+: u) (p : Config.Params) :
    scanFrom p u Scanner.reset = (hunted u, []) := by
  induction u using List.reverseRecOn with
  | nil => rfl
  | append_singleton u x ih =>
    rw [List.infix_concat_iff, not_or] at h
    obtain ⟨hsuf, hinf⟩ := h
    rw [scanFrom_append, ih hinf]
    simp only [scanFrom, scannerStep_hunted hsuf, List.append_nil]

/-- The first opening of a buffer starts a candidate (R153). -/
theorem scanFrom_opening {u : ByteSeq} (h : ¬ opening <:+: u ++ [preambleByte, preambleByte]) (p : Config.Params) :
    scanFrom p (u ++ opening) Scanner.reset = ({ rxs := .body, rxbuf := [hostAddrValue] }, []) := by
  have hdst : hunted (u ++ [preambleByte, preambleByte]) = { rxs := .dst, rxbuf := [] } := by
    simp only [hunted, List.suffix_append, if_true]
  calc scanFrom p (u ++ opening) Scanner.reset
    _ = scanFrom p ((u ++ [preambleByte, preambleByte]) ++ [hostAddrValue]) Scanner.reset := by
      rw [List.append_assoc]; rfl
    _ = _ := by rw [scanFrom_append, scanFrom_of_no_opening h, hdst]; rfl

/-! ### Collecting a candidate and closing it -/

/-- Bytes other than the postamble are collected while they fit (R154). -/
theorem scanFrom_collect {p : Config.Params} {bs buf : ByteSeq} (hfd : postamble ∉ bs)
    (hcap : fitsCap p.rxbufCap (buf.length + bs.length)) :
    scanFrom p bs { rxs := .body, rxbuf := buf } = ({ rxs := .body, rxbuf := buf ++ bs }, []) := by
  have h := receiveBytes_collect (s := { State.reset with params := p }) hfd hcap []
  rw [List.append_nil] at h
  rw [scanFrom_eq, h]
  rfl

/-- The postamble ends a candidate, and its frame comes first if it is long enough (R155). -/
theorem scanFrom_close (p : Config.Params) (A rest : ByteSeq) :
    scanFrom p (postamble :: rest) { rxs := .body, rxbuf := A } =
      ((scanFrom p rest Scanner.reset).1,
        (if minCandidate ≤ A.length then [frameEmit p hostAddrValue A] else []) ++ (scanFrom p rest Scanner.reset).2) := by
  by_cases hlen : minCandidate ≤ A.length
  · simp [scanFrom, scannerStep_close hlen, hlen]
  · simp [scanFrom, scannerStep, closeCandidate, hlen, Scanner.reset]

/-- An opened candidate without a postamble stays in the scanner of infinite capacity, and returns nothing. -/
theorem scanFrom_candidate {u bs : ByteSeq} (hu : ¬ opening <:+: u ++ [preambleByte, preambleByte])
    (hbs : postamble ∉ bs) (p : Config.Params) :
    scanFrom (unbounded p) (u ++ opening ++ bs) Scanner.reset =
      ({ rxs := .body, rxbuf := hostAddrValue :: bs }, []) := by
  have hcollect : scanFrom (unbounded p) bs { rxs := .body, rxbuf := [hostAddrValue] } =
      ({ rxs := .body, rxbuf := hostAddrValue :: bs }, []) := scanFrom_collect hbs nofun
  rw [scanFrom_append, scanFrom_opening hu, hcollect]
  rfl

/-- An opened candidate with its postamble: its frame, if it is long enough, and the scanner starts over. -/
theorem scanFrom_frame {u bs : ByteSeq} (hu : ¬ opening <:+: u ++ [preambleByte, preambleByte])
    (hbs : postamble ∉ bs) (p : Config.Params) (rest : ByteSeq) :
    scanFrom (unbounded p) (u ++ opening ++ bs ++ postamble :: rest) Scanner.reset =
      ((scanFrom (unbounded p) rest Scanner.reset).1,
        (if minCandidate ≤ (hostAddrValue :: bs).length then [frameEmit p hostAddrValue (hostAddrValue :: bs)] else []) ++
          (scanFrom (unbounded p) rest Scanner.reset).2) := by
  rw [scanFrom_append, scanFrom_candidate hu hbs, scanFrom_close]
  rfl

end Sys2Proof.Machine
end

section
/-! SUPPORT. Valid frames one after the other, and a frame cut short (R165). -/

namespace Sys2Proof.Machine

theorem wireFrame_eq_opening (src : Byte) (body : ByteSeq) :
    wireFrame hostAddrValue src body = [] ++ opening ++ (src :: body) ++ [postamble] := rfl

theorem not_opening_infix_preambles : ¬ opening <:+: [] ++ [preambleByte, preambleByte] := by decide

/-- A valid frame at the head of a buffer is returned first, and leaves the scanner clear. -/
theorem scanFrom_wireFrame_append {src : Byte} {body : ByteSeq} (hbody : body ≠ []) (hfd : postamble ∉ src :: body)
    (p : Config.Params) (rest : ByteSeq) :
    scanFrom (unbounded p) (wireFrame hostAddrValue src body ++ rest) Scanner.reset =
      ((scanFrom (unbounded p) rest Scanner.reset).1,
        frameEmit p hostAddrValue (hostAddrValue :: src :: body) :: (scanFrom (unbounded p) rest Scanner.reset).2) := by
  have hlen : minCandidate ≤ (hostAddrValue :: src :: body).length :=
    Nat.add_le_add_right (List.length_pos_iff.mpr hbody) 2
  rw [wireFrame_eq_opening, List.append_assoc _ [postamble], List.singleton_append,
    scanFrom_frame not_opening_infix_preambles hfd, if_pos hlen]
  rfl

/-- Valid frames one after the other give one record each and leave the scanner clear. -/
theorem scanFrom_wireFrames {fs : List (Byte × ByteSeq)} (h : ∀ f ∈ fs, f.2 ≠ [] ∧ postamble ∉ f.1 :: f.2)
    (p : Config.Params) :
    scanFrom (unbounded p) (fs.flatMap fun f => wireFrame hostAddrValue f.1 f.2) Scanner.reset =
      (Scanner.reset, fs.map fun f => frameEmit p hostAddrValue (hostAddrValue :: f.1 :: f.2)) := by
  induction fs with
  | nil => rfl
  | cons f fs ih =>
    obtain ⟨hf, hfs⟩ := List.forall_mem_cons.mp h
    rw [List.flatMap_cons, scanFrom_wireFrame_append hf.1 hf.2, ih hfs, List.map_cons]

/-- What comes before the end of a valid frame returns nothing. -/
theorem scan_of_truncated {src : Byte} {body u v : ByteSeq} (hfd : postamble ∉ src :: body)
    (huv : u ++ v = wireFrame hostAddrValue src body) (hv : v ≠ []) (p : Config.Params) : scan p u = [] := by
  have hcut : u ++ v.dropLast = [] ++ opening ++ (src :: body) := by
    rw [← List.dropLast_append_of_ne_nil hv, huv, wireFrame_eq_opening, List.dropLast_concat]
  have hnone : scan p (u ++ v.dropLast) = [] := by
    rw [hcut, scan, scanFrom_candidate not_opening_infix_preambles hfd]
  rw [(scanMayBeCutAnywhere p u v.dropLast).1] at hnone
  exact (List.append_eq_nil_iff.mp hnone).1

/-- Settles O35: the frames leave the scanner clear, so what follows is scanned as if it stood alone. -/
theorem concatenatedFrames : Obligations.ConcatenatedFrames := by
  intro p fs hfs wire
  have hframes : scanFrom (unbounded p) (fs.flatMap wire) Scanner.reset = _ := scanFrom_wireFrames hfs p
  have hresidue : scanResidue p (fs.flatMap wire) = Scanner.reset := congrArg Prod.fst hframes
  have hscan : scan p (fs.flatMap wire) = fs.map fun f => frameEmit p hostAddrValue (hostAddrValue :: f.1 :: f.2) :=
    congrArg Prod.snd hframes
  constructor
  · rw [hscan, List.map_map]
    refine List.map_id'' (fun f => ?_) fs
    exact Prod.ext rfl (frameEmit_cmd_append_payload p hostAddrValue (hostAddrValue :: f.1 :: f.2))
  · intro g u v _ hg huv hv
    have hu : scan p u = [] := scan_of_truncated hg huv hv p
    obtain ⟨hcutScan, hcutResidue⟩ := scanMayBeCutAnywhere p (fs.flatMap wire) u
    rw [hresidue] at hcutScan hcutResidue
    exact ⟨hcutScan.trans (List.append_right_eq_self.mpr hu), hcutResidue, hu⟩

end Sys2Proof.Machine
end

section
/-! SUPPORT. `scan` against its description without the machine (R164): the loop's search by index for an opening and for
a postamble cuts the buffer where the scanner opens and closes its first candidate. -/

namespace Sys2Proof.Machine

/-! ### The search by index -/

theorem leastFrom_eq_some {n pos i : Nat} {has : Nat → Bool} (h : leastFrom n pos has = some i) :
    pos ≤ i ∧ i < n ∧ has i = true ∧ ∀ k, pos ≤ k → k < i → has k = false := by
  rw [leastFrom, List.find?_range_eq_some] at h
  obtain ⟨hi, hn, hleast⟩ := h
  simp only [Bool.and_eq_true, decide_eq_true_eq, List.mem_range] at hi hn
  refine ⟨hi.1, hn, hi.2, fun k hpos hk => ?_⟩
  simpa [hpos] using hleast k hk

theorem leastFrom_eq_none {n pos : Nat} {has : Nat → Bool} (h : leastFrom n pos has = none) :
    ∀ k, pos ≤ k → k < n → has k = false := by
  intro k hpos hk
  simpa [hpos] using List.find?_range_eq_none.mp h k hk

/-! ### Slices -/

theorem drop_eq_slice_append {i j : Nat} (h : i ≤ j) (b : ByteSeq) : b.drop i = slice b i j ++ b.drop j := by
  have hj : b.drop j = (b.drop i).drop (j - i) := by rw [List.drop_drop, Nat.add_sub_cancel' h]
  rw [slice, List.drop_take, hj, List.take_append_drop]

theorem length_slice {i j : Nat} {b : ByteSeq} (h : j ≤ b.length) : (slice b i j).length = j - i := by
  rw [slice, List.length_drop, List.length_take_of_le h]

/-- A byte of a slice stands in the sequence between its ends. -/
theorem exists_of_mem_slice {b : ByteSeq} {i j : Nat} {x : Byte} (h : x ∈ slice b i j) :
    ∃ k, i ≤ k ∧ k < j ∧ b[k]? = some x := by
  obtain ⟨n, hn⟩ := List.mem_iff_getElem?.mp h
  rw [slice, List.getElem?_drop, List.getElem?_take] at hn
  split at hn
  · next hlt => exact ⟨i + n, Nat.le_add_right i n, hlt, hn⟩
  · cases hn

/-! ### Where a postamble stands -/

/-- The first postamble from `pos` on ends the bytes without one. -/
theorem drop_eq_of_first_postamble {b : ByteSeq} {pos j : Nat}
    (h : leastFrom b.length pos (fun k => b[k]? == some postamble) = some j) :
    b.drop pos = slice b pos j ++ postamble :: b.drop (j + 1) ∧ postamble ∉ slice b pos j := by
  obtain ⟨hpos, -, hj, hleast⟩ := leastFrom_eq_some h
  constructor
  · rw [drop_eq_slice_append hpos, List.drop_eq_getElem?_toList_append (i := j), eq_of_beq hj]
    rfl
  · intro hmem
    obtain ⟨k, hk, hkj, hat⟩ := exists_of_mem_slice hmem
    exact absurd (hleast k hk hkj) (by simp [hat])

theorem postamble_not_mem_drop {b : ByteSeq} {pos : Nat}
    (h : leastFrom b.length pos (fun k => b[k]? == some postamble) = none) : postamble ∉ b.drop pos := by
  intro hmem
  obtain ⟨n, hn⟩ := List.mem_iff_getElem?.mp hmem
  rw [List.getElem?_drop] at hn
  obtain ⟨hlt, -⟩ := List.getElem?_eq_some_iff.mp hn
  exact absurd (leastFrom_eq_none h _ (Nat.le_add_right pos n) hlt) (by simp [hn])

/-! ### Where an opening stands -/

theorem opensAt_iff {b : ByteSeq} {i : Nat} : opensAt b i = true ↔ opening <+: b.drop i := by
  simp only [opensAt, opening, List.prefix_iff_getElem?, Bool.and_eq_true, beq_iff_eq, List.getElem?_drop]
  constructor
  · rintro ⟨⟨h0, h1⟩, h2⟩ (_ | _ | _ | n) hn
    exacts [h0, h1, h2, absurd hn (by simp)]
  · exact fun h => ⟨⟨h 0 (by simp), h 1 (by simp)⟩, h 2 (by simp)⟩

theorem lt_length_of_opensAt {b : ByteSeq} {i : Nat} (h : opensAt b i = true) : i + 2 < b.length := by
  have hlen := (opensAt_iff.mp h).length_le
  rw [List.length_drop] at hlen
  simp only [opening, List.length_cons, List.length_nil] at hlen
  omega

theorem opensAt_drop (b : ByteSeq) (pos k : Nat) : opensAt (b.drop pos) k = opensAt b (pos + k) := by
  rw [Bool.eq_iff_iff, opensAt_iff, opensAt_iff, List.drop_drop]

/-- An opening among the first bytes of a sequence is one of the sequence. -/
theorem opensAt_of_prefix {u b : ByteSeq} {k : Nat} (hpre : u <+: b) (h : opensAt u k = true) : opensAt b k = true :=
  opensAt_iff.mpr ((opensAt_iff.mp h).trans (hpre.drop k))

/-- An opening anywhere in a sequence stands at an index. -/
theorem exists_opensAt {u : ByteSeq} (h : opening <:+: u) : ∃ k, opensAt u k = true := by
  obtain ⟨t, hpre, hsuf⟩ := List.infix_iff_prefix_suffix.mp h
  exact ⟨u.length - t.length, opensAt_iff.mpr (List.suffix_iff_eq_drop.mp hsuf ▸ hpre)⟩

theorem no_opening_of_leastFrom {b : ByteSeq} {pos : Nat} (h : leastFrom b.length pos (opensAt b) = none) :
    ¬ opening <:+: b.drop pos := by
  intro hinf
  obtain ⟨k, hk⟩ := exists_opensAt hinf
  rw [opensAt_drop] at hk
  have hlt := lt_length_of_opensAt hk
  exact absurd (leastFrom_eq_none h _ (Nat.le_add_right pos k) (by omega)) (by simp [hk])

/-- The first opening from `pos` on follows bytes that complete none. -/
theorem drop_eq_of_first_opening {b : ByteSeq} {pos i : Nat} (h : leastFrom b.length pos (opensAt b) = some i) :
    b.drop pos = slice b pos i ++ opening ++ b.drop (i + 3) ∧
      ¬ opening <:+: slice b pos i ++ [preambleByte, preambleByte] := by
  obtain ⟨hpos, hlt, hopens, hleast⟩ := leastFrom_eq_some h
  have hdrop : b.drop i = opening ++ b.drop (i + 3) := by
    have hrest := List.prefix_append_drop (opensAt_iff.mp hopens)
    rwa [List.drop_drop] at hrest
  have hcut : b.drop pos = slice b pos i ++ opening ++ b.drop (i + 3) := by
    rw [drop_eq_slice_append hpos, hdrop, List.append_assoc]
  refine ⟨hcut, fun hinf => ?_⟩
  obtain ⟨k, hk⟩ := exists_opensAt hinf
  have hbefore : k < i - pos := by
    have hlen := lt_length_of_opensAt hk
    rw [List.length_append, length_slice hlt.le] at hlen
    simpa using hlen
  have hpre : slice b pos i ++ [preambleByte, preambleByte] <+: b.drop pos :=
    ⟨hostAddrValue :: b.drop (i + 3), by rw [hcut]; simp [opening]⟩
  have hearlier := opensAt_of_prefix hpre hk
  rw [opensAt_drop] at hearlier
  exact absurd (hleast (pos + k) (Nat.le_add_right pos k) (by omega)) (by simp [hearlier])

/-- A candidate's bytes begin with the last byte of its opening. -/
theorem slice_of_opensAt {b : ByteSeq} {i j : Nat} (h : opensAt b i = true) (hj : i + 3 ≤ j) :
    slice b (i + 2) j = hostAddrValue :: slice b (i + 3) j := by
  have hhost : b[i + 2]? = some hostAddrValue := by
    simp only [opensAt, Bool.and_eq_true, beq_iff_eq] at h
    exact h.2
  rw [slice, List.drop_eq_getElem?_toList_append, List.getElem?_take_of_lt (by omega), hhost]
  rfl

/-! ### The loop of R164 -/

/-- From any index on, with turns enough, the loop returns what the scanner does. -/
theorem scanLoop_eq_scan (p : Config.Params) (b : ByteSeq) {turns pos : Nat} (h : b.length < turns + pos) :
    scanLoop p b turns pos = scan p (b.drop pos) := by
  induction turns generalizing pos with
  | zero =>
    have hnil : b.drop pos = [] := List.drop_eq_nil_of_le (by omega)
    rw [hnil]
    rfl
  | succ turns ih =>
    unfold scanLoop
    split
    · next hnone => rw [scan, scanFrom_of_no_opening (no_opening_of_leastFrom hnone)]
    · next i hi =>
      obtain ⟨hopen, hfirst⟩ := drop_eq_of_first_opening hi
      obtain ⟨hpos, -, hopens, -⟩ := leastFrom_eq_some hi
      split
      · next hnone => rw [hopen, scan, scanFrom_candidate hfirst (postamble_not_mem_drop hnone)]
      · next j hj =>
        obtain ⟨hclose, hfd⟩ := drop_eq_of_first_postamble hj
        obtain ⟨hij, hlt, -, -⟩ := leastFrom_eq_some hj
        have hcand := slice_of_opensAt hopens hij
        have hlen : (hostAddrValue :: slice b (i + 3) j).length = j - (i + 2) := hcand ▸ length_slice hlt.le
        rw [ih (by omega), hopen, hclose, ← List.append_assoc, scan, scan, scanFrom_frame hfirst hfd, hlen, hcand]

/-- Settles O34: the loop from index 0 on, with a turn more than the buffer has bytes. -/
theorem scanEqualsReference : Obligations.ScanEqualsReference :=
  fun p b => (scanLoop_eq_scan p b (turns := b.length + 1) (pos := 0) (Nat.lt_succ_self _)).symm

end Sys2Proof.Machine
end

section
/-! SUPPORT. The operations of the reassembler on the whole state (R181, R182, R191 to R193), the table of `SC.FRAME`
(R183 to R189), and that no other operation writes a register of the reassembler (R199). -/

namespace Sys2Proof.Machine

/-! ### Sessions in flight -/

theorem inFlight_eq_false_iff {q : Reassembler} :
    inFlight q = false ↔ q.scState = .idle ∨ q.scState = .complete := by
  unfold inFlight
  cases q.scState <;> simp

/-! ### The operations -/

theorem exec_scReq_of_not_inFlight {s : State} (h : inFlight s.sc = false) (budget : BitVec 8) :
    exec (.scReq budget) s = .next { s with sc := scArm budget s.sc, result := .ok } := by
  simp only [exec, execScReq, h]
  rfl

theorem exec_scReq_of_inFlight {s : State} (h : inFlight s.sc = true) (budget : BitVec 8) :
    exec (.scReq budget) s = .next { s with err := errSet .scBusy s.err, result := .refused } := by
  simp only [exec, execScReq, h]
  rfl

theorem exec_scAttempt (s : State) :
    exec .scAttempt s = .next { s with sc := scCount s.sc, result := .session (scCount s.sc).scResult } := rfl

theorem exec_scAbort (s : State) : exec .scAbort s = .next { s with sc := scDiscard s.sc, result := .none } := rfl

theorem scCount_of_not_inFlight {q : Reassembler} (h : inFlight q = false) : scCount q = q := by
  simp only [scCount, h, Bool.false_eq_true, if_false]

theorem scCount_of_lt {q : Reassembler} (h : inFlight q = true) (hlt : q.attCount.toNat + 1 < q.attBudget.toNat) :
    scCount q = { q with attCount := q.attCount + 1 } := by
  simp only [scCount, h, if_true, if_neg hlt.not_ge]

theorem scCount_of_ge {q : Reassembler} (h : inFlight q = true) (hge : q.attBudget.toNat ≤ q.attCount.toNat + 1) :
    scCount q = scAbandon { q with attCount := q.attCount + 1 } := by
  simp only [scCount, h, if_true, if_pos hge]

/-- An attempt below the budget is counted without leaving the 8 bits (R34, log 11). -/
theorem attCount_succ_of_lt {q : Reassembler} (h : q.attCount.toNat + 1 < q.attBudget.toNat) :
    (q.attCount + 1).toNat = q.attCount.toNat + 1 := by
  have hbudget := q.attBudget.isLt
  have hone : (1 : BitVec 8).toNat = 1 := rfl
  rw [BitVec.toNat_add, hone]
  omega

theorem scDiscard_scResult_of_inFlight {q : Reassembler} (h : inFlight q = true) :
    (scDiscard q).scResult = .aborted :=
  if_pos h

theorem scDiscard_scResult_of_not_inFlight {q : Reassembler} (h : inFlight q = false) :
    (scDiscard q).scResult = .none :=
  if_neg (by simp [h])

/-- While `AMP_LEN` is 0 no index of `AMP` is readable (R65). -/
theorem State.readAmp_of_ampLen_zero {s : State} (h : s.sc.ampLen = 0) (i : Nat) : s.readAmp i = none :=
  State.readAmp_of_le (h ▸ Nat.zero_le i)

/-! ### What leaves the reassembler alone -/

theorem ampKept_of_sc_eq {s t : State} (h : t.sc = s.sc) : ampKept s t := by
  intro i
  simp only [State.readAmp, h]

theorem writesReassembler_of_format_rx {i : Instr} (h : i.format = .rx) : writesReassembler i = true := by
  unfold writesReassembler
  split <;> simp [h]

theorem Effect.sc_eq {s t : State} {i : Instr} (h : Effect s i t) (hi : writesReassembler i = false) : t.sc = s.sc := by
  cases h with
  | reset | byte | armed | counted | discarded => exact absurd hi nofun
  | received row => exact absurd (writesReassembler_of_format_rx row) (by simp [hi])
  | profile | sent | flushed | decoded => rfl
  | unknownProfile => exact State.raise_sc_of_flag rfl _
  | refused flag => exact State.raise_sc_of_flag flag s

/-- An `RX.BYTE` that emits no frame with a scope operand leaves the reassembler alone (R160, R199). -/
theorem rxByteOp_sc_eq {x : Byte} {s : State} (h : ∀ r, (rxByteOp x s).2 = some r → r.scope = none) :
    (rxByteOp x s).1.sc = s.sc := by
  rcases rxByteOp_cases x s with hop | ⟨-, -, -, hop⟩ | ⟨-, -, -, hop⟩
  · rw [hop, State.setScan_sc]
  · rw [hop]
  · have hnone := h _ (congrArg Prod.snd hop)
    rw [hop]
    exact scopeDispatch_of_none hnone s.sc

/-! ### The statements about the reassembler's operations -/

/-- Settles O47: an effect that writes the reassembler is that of one of its operations, and a received byte reaches it
only through a scope operand. -/
theorem reassemblerWrittenOnlyByScope : Obligations.ReassemblerWrittenOnlyByScope := by
  constructor
  · intro i s t hi h
    obtain ⟨u, r, rfl, heff⟩ := effect_of_exec h
    exact ⟨heff.sc_eq hi, ampKept_of_sc_eq (heff.sc_eq hi)⟩
  · intro x s t h hresult
    rw [exec_rxByte] at h
    cases h
    have hsc := rxByteOp_sc_eq fun r hr => hresult r (by rw [State.setResult_result, hr]; rfl)
    exact ⟨hsc, ampKept_of_sc_eq hsc⟩

/-- Settles O38. -/
theorem scReqArms : Obligations.ScReqArms := by
  intro s budget hstate
  refine ⟨_, exec_scReq_of_not_inFlight (inFlight_eq_false_iff.mpr hstate) budget, ?_⟩
  exact ⟨rfl, rfl, rfl, rfl, rfl, rfl, rfl, rfl, rfl, State.readAmp_of_ampLen_zero rfl, rfl, rfl, rfl, rfl, rfl, rfl⟩

/-- Settles O39. -/
theorem scReqBusyRefused : Obligations.ScReqBusyRefused :=
  fun _ budget hstate => exec_scReq_of_inFlight (inFlight_iff.mpr hstate) budget

/-- Settles O40, by the three cases of the count. -/
theorem scAttemptCounts : Obligations.ScAttemptCounts := by
  intro s
  refine ⟨fun hstate => ?outside, fun hstate hlt => ?counts, fun hstate hge => ?abandons⟩
  case outside => rw [exec_scAttempt, scCount_of_not_inFlight (inFlight_eq_false_iff.mpr hstate)]
  case counts =>
    refine ⟨?_, attCount_succ_of_lt hlt⟩
    rw [exec_scAttempt, scCount_of_lt (inFlight_iff.mpr hstate) hlt]
  case abandons =>
    refine ⟨_, exec_scAttempt s, ?_⟩
    rw [scCount_of_ge (inFlight_iff.mpr hstate) hge]
    exact ⟨rfl, rfl, rfl, rfl, rfl, rfl, rfl, State.readAmp_of_ampLen_zero rfl, rfl, rfl, rfl, rfl, rfl, rfl, rfl, rfl⟩

/-- Settles O41. -/
theorem scAbortDiscards : Obligations.ScAbortDiscards := by
  intro s
  refine ⟨_, exec_scAbort s, rfl, rfl, rfl, rfl, rfl, rfl, State.readAmp_of_ampLen_zero rfl, rfl, rfl, ?_, ?_, rfl, rfl,
    rfl, rfl, rfl, rfl⟩
  · exact fun hstate => scDiscard_scResult_of_inFlight (inFlight_iff.mpr hstate)
  · exact fun hstate => scDiscard_scResult_of_not_inFlight (inFlight_eq_false_iff.mpr hstate)

/-- Settles O42, by the rule of `SC.FRAME` for each state and marker. -/
theorem scFrameTable : Obligations.ScFrameTable := by
  intro sub P q
  refine ⟨fun hst => ?outside, fun hst hsub => ?waiting, fun hst hsub => ?header, fun hst hsub => ?append,
    fun hst hsub hlen => ?whole, fun hst hsub hlen => ?failure⟩
  case outside => exact scFrame_ignored (hst.imp_right .inl) P
  case waiting => exact scFrame_ignored (.inr (.inr ⟨hst, hsub⟩)) P
  case header =>
    subst hsub
    exact scFrame_header hst P
  case append => exact scFrame_append hst hsub P
  case whole =>
    subst hsub
    exact ⟨_, Memory.read_fill _, (scFrame_terminal hst P).trans (scComplete_ok hlen q)⟩
  case failure =>
    subst hsub
    exact ⟨_, (scFrame_terminal hst P).trans (scComplete_fail hlen q)⟩

end Sys2Proof.Machine
end

section
/-! SUPPORT. The bounded end of a session (R191, R192): `EndsWithin n` bounds the attempts a session in flight still
has, every operation but `SC.REQ` keeps the bound, and `SC.ATTEMPT` lowers it. -/

namespace Sys2Proof.Machine

/-- If a session is in flight, the `n`-th attempt from here, or an earlier one, ends it. -/
def EndsWithin (n : Nat) (q : Reassembler) : Prop :=
  inFlight q = true → 0 < n ∧ q.attBudget.toNat ≤ q.attCount.toNat + n

theorem endsWithin_zero_iff {q : Reassembler} : EndsWithin 0 q ↔ inFlight q = false := by
  simp [EndsWithin]

theorem endsWithin_of_not_inFlight {q : Reassembler} (h : inFlight q = false) (n : Nat) : EndsWithin n q :=
  fun hq => absurd hq (by simp [h])

theorem EndsWithin.mono {m n : Nat} {q : Reassembler} (h : EndsWithin m q) (hmn : m ≤ n) : EndsWithin n q :=
  fun hq => by
    obtain ⟨hpos, hbudget⟩ := h hq
    omega

theorem endsWithin_budget {q : Reassembler} {n : Nat} (h : max q.attBudget.toNat 1 ≤ n) : EndsWithin n q :=
  fun _ => by omega

/-- A register change that starts no session and keeps the two attempt registers keeps the bound. -/
theorem EndsWithin.of_eq {n : Nat} {q q' : Reassembler} (h : EndsWithin n q)
    (hstarts : inFlight q' = true → inFlight q = true) (hbudget : q'.attBudget = q.attBudget)
    (hcount : q'.attCount = q.attCount) : EndsWithin n q' := by
  intro hq'
  rw [hbudget, hcount]
  exact h (hstarts hq')

/-- An attempt uses one up: it is counted below the budget, and ends the session at it. -/
theorem scCount_endsWithin {n : Nat} {q : Reassembler} (h : EndsWithin (n + 1) q) :
    EndsWithin n (scCount q) := by
  rcases scCount_cases q with ⟨hfl, hq⟩ | ⟨hfl, hlt, hq⟩ | ⟨-, -, hq⟩ <;> rw [hq]
  · exact endsWithin_of_not_inFlight hfl n
  · intro _
    obtain ⟨-, hbudget⟩ := h hfl
    have hsucc := attCount_succ_of_lt hlt
    have hleft : 0 < n ∧ q.attBudget.toNat ≤ (q.attCount + 1).toNat + n := by omega
    exact hleft
  · exact endsWithin_of_not_inFlight rfl n

theorem inFlight_of_inFlight_scFrame {sub : Byte} {P : ByteSeq} {q : Reassembler}
    (h : inFlight (scFrame sub P q) = true) : inFlight q = true := by
  by_contra hout
  have hstate := inFlight_eq_false_iff.mp (Bool.eq_false_of_not_eq_true hout)
  rw [scFrame_ignored (hstate.imp_right .inl)] at h
  exact hout h

theorem rxByteOp_endsWithin {n : Nat} (x : Byte) (s : State) (h : EndsWithin n s.sc) :
    EndsWithin n (rxByteOp x s).1.sc := by
  rcases rxByteOp_sc x s with hsc | ⟨sub, P, hsc⟩ <;> rw [hsc]
  · exact h
  · exact h.of_eq inFlight_of_inFlight_scFrame (scFrame_attBudget sub P s.sc) (scFrame_attCount sub P s.sc)

/-- Every operation but `SC.REQ` keeps the bound. -/
theorem Effect.keeps_endsWithin {s t : State} {i : Instr} (heff : Effect s i t) (hi : isRequest i = false) {n : Nat}
    (h : EndsWithin n s.sc) : EndsWithin n t.sc := by
  cases heff with
  | armed => exact absurd hi nofun
  | reset => exact endsWithin_of_not_inFlight rfl n
  | discarded => exact endsWithin_of_not_inFlight rfl n
  | profile | sent | flushed | decoded => exact h
  | unknownProfile => rwa [State.raise_sc_of_flag rfl]
  | refused flag => rwa [State.raise_sc_of_flag flag]
  | byte x => exact rxByteOp_endsWithin x s h
  | received _ b => exact receiveBytes_keeps (keep := fun u => EndsWithin n u.sc) rxByteOp_endsWithin b s h
  | counted => exact scCount_endsWithin (h.mono (Nat.le_succ n))

/-- Of the attempts still to come, the first operation takes one if it is an attempt. -/
theorem exec_endsWithin {i : Instr} {rest : List Instr} {s : State} (hi : isRequest i = false)
    (h : EndsWithin ((i :: rest).count .scAttempt) s.sc) :
    ∃ t, exec i s = .next t ∧ EndsWithin (rest.count .scAttempt) t.sc := by
  by_cases hatt : i = .scAttempt
  · subst hatt
    rw [List.count_cons_self] at h
    exact ⟨_, exec_scAttempt s, scCount_endsWithin h⟩
  · obtain ⟨u, r, hexec, heff⟩ := exec_effect i s
    rw [List.count_cons_of_ne hatt] at h
    exact ⟨_, hexec, heff.keeps_endsWithin hi h⟩

/-- Operations without `SC.REQ` that hold `n` attempts end a session that `n` attempts end. -/
theorem runAll_ends_session (ops : List Instr) {s : State} (hops : ∀ i ∈ ops, isRequest i = false)
    (h : EndsWithin (ops.count .scAttempt) s.sc) : ∃ t, runAll exec ops s = .next t ∧ inFlight t.sc = false := by
  induction ops generalizing s with
  | nil => exact ⟨s, rfl, endsWithin_zero_iff.mp h⟩
  | cons i rest ih =>
    obtain ⟨u, hexec, hbound⟩ := exec_endsWithin (hops i List.mem_cons_self) h
    simp only [runAll, hexec]
    exact ih (fun j hj => hops j (List.mem_cons_of_mem i hj)) hbound

/-- Settles O48: the budget bounds the attempts from any state. -/
theorem budgetEndsSession : Obligations.BudgetEndsSession :=
  fun _ ops hops hcount => runAll_ends_session ops hops (endsWithin_budget hcount)

end Sys2Proof.Machine
end

section
/-! SUPPORT. The bounded implementation of `ACC` (R201) follows the unbounded one event by event: `toBounded` is a
simulation, each event of the bounded machine being the bounded form of the same event of the unbounded one. -/

namespace Sys2Proof.Machine

@[simp] theorem inFlight_toBounded (q : Reassembler) : inFlight (toBounded q).regs = inFlight q := rfl

/-- Appending and then cutting is cutting, appending and cutting; the counter stops at 476 (R201). -/
theorem boundedAppend_toBounded (P : ByteSeq) (q : Reassembler) :
    boundedAppend P (toBounded q) = toBounded { q with acc := q.acc ++ P } := by
  have hacc : (q.acc.take nSamples ++ P).take nSamples = (q.acc ++ P).take nSamples := by
    have hroom : nSamples - min nSamples q.acc.length = nSamples - q.acc.length := by omega
    simp only [List.take_append, List.take_take, List.length_take, Nat.min_self, hroom]
  have hcount : min countTop (min countTop q.acc.length + P.length) = min countTop (q.acc ++ P).length := by
    rw [List.length_append]
    omega
  simp only [boundedAppend, toBounded, hacc, hcount]

/-- The counter reads 475 exactly when the total is of 475 bytes, and then none is lost (R201). -/
theorem boundedComplete_toBounded (A : ByteSeq) (q : Reassembler) :
    boundedComplete (toBounded { q with acc := A }) = toBounded (scComplete A q) := by
  have hcount : min countTop A.length = nSamples ↔ A.length = 475 := by
    unfold countTop nSamples
    omega
  by_cases hlen : A.length = 475
  · have hfull : A.take nSamples = A := List.take_of_length_le hlen.le
    simp only [scComplete_ok hlen, boundedComplete, toBounded, hcount, if_pos hlen, hfull]
    rfl
  · simp only [scComplete_fail hlen, boundedComplete, toBounded, hcount, if_neg hlen]
    rfl

theorem boundedFrame_toBounded (sub : Byte) (P : ByteSeq) (q : Reassembler) :
    boundedFrame sub P (toBounded q) = toBounded (scFrame sub P q) := by
  have hst : (toBounded q).regs.scState = q.scState := rfl
  cases h : q.scState with
  | idle => simp only [boundedFrame, scFrame, hst, h]
  | complete => simp only [boundedFrame, scFrame, hst, h]
  | awaitingHeader =>
    simp only [boundedFrame, scFrame, hst, h]
    split
    · exact boundedAppend_toBounded (P.drop hdrLen) { scHeader P q with acc := [] }
    · rfl
  | accumulating =>
    simp only [boundedFrame, scFrame, hst, h, boundedAppend_toBounded]
    split
    · exact boundedComplete_toBounded (q.acc ++ P) q
    · rfl

/-- Cutting `ACC` changes neither whether an attempt is the last one nor what it does (R191, R201). -/
theorem boundedEvent_attempt_toBounded (q : Reassembler) :
    boundedEvent .attempt (toBounded q) = toBounded (scCount q) := by
  rcases scCount_cases q with ⟨hfl, hq⟩ | ⟨hfl, hlt, hq⟩ | ⟨hfl, hge, hq⟩
  · have hcount : scCount (toBounded q).regs = (toBounded q).regs := scCount_of_not_inFlight hfl
    simp only [boundedEvent, hcount, hq, inFlight_toBounded, hfl, Bool.false_and, Bool.false_eq_true, if_false]
  · have hcount := scCount_of_lt (q := (toBounded q).regs) hfl hlt
    have hstays : inFlight (scCount (toBounded q).regs) = true := hcount ▸ hfl
    simp only [boundedEvent, hstays, Bool.not_true, Bool.and_false, Bool.false_eq_true, if_false]
    rw [hcount, hq]
    rfl
  · have hcount := scCount_of_ge (q := (toBounded q).regs) hfl hge
    have hends : inFlight (scCount (toBounded q).regs) = false := hcount ▸ rfl
    simp only [boundedEvent, hends, inFlight_toBounded, hfl, Bool.not_false, Bool.and_true, if_true]
    rw [hcount, hq]
    rfl

/-- Each event commutes with taking the bounded form (R201). -/
theorem boundedEvent_toBounded (q : Reassembler) (e : ScEvent) :
    boundedEvent e (toBounded q) = toBounded (scEvent e q) := by
  cases e with
  | request budget =>
    by_cases hfl : inFlight q = true
    · have hkept : scEvent (.request budget) q = q := if_pos hfl
      rw [hkept]
      exact if_pos hfl
    · have harmed : scEvent (.request budget) q = scArm budget q := if_neg hfl
      rw [harmed]
      exact if_neg hfl
  | frame sub P => exact boundedFrame_toBounded sub P q
  | attempt => exact boundedEvent_attempt_toBounded q
  | abort => rfl

/-- Settles O49: the simulation, carried along the sequence of events. -/
theorem boundedAccAgrees : Obligations.BoundedAccAgrees := by
  intro es q
  have hfold : es.foldl (fun w e => boundedEvent e w) (toBounded q) =
      toBounded (es.foldl (fun r e => scEvent e r) q) :=
    List.foldl_hom toBounded boundedEvent_toBounded
  simp only [hfold]
  exact ⟨rfl, rfl, rfl⟩

end Sys2Proof.Machine
end

section
/-! SUPPORT. The round trip of a frequency through its BCD bytes (R198), and the multiples a span is of (R197). -/

namespace Sys2Proof.Machine

/-! ### BCD bytes of a number -/

theorem bcdPair_toNat (n : Nat) : (bcdPair (n / 10 % 10) (n % 10)).toNat = 16 * (n / 10 % 10) + n % 10 := by
  rw [bcdPair, BitVec.toNat_ofNat]
  omega

theorem decimalByte_bcdPair (n : Nat) : decimalByte (bcdPair (n / 10 % 10) (n % 10)) = true := by
  rw [decimalByte_iff_toNat, bcdPair_toNat]
  omega

/-- The two last decimal digits of a number are its last digit to the base 100. -/
theorem bcdByte_bcdPair (n : Nat) : bcdByte (bcdPair (n / 10 % 10) (n % 10)) = n % 100 := by
  rw [bcdByte, hi_eq, lo_eq, bcdPair_toNat]
  omega

/-- Byte `i` holds the two last decimal digits of the number without its `i` last digits to the base 100 (R198). -/
theorem bcdBytes_succ (f n i : Nat) :
    bcdBytes f (n + 1) i = bcdPair (f / 100 ^ i / 10 % 10) (f / 100 ^ i % 10) :: bcdBytes f n (i + 1) := by
  rw [bcdBytes, Nat.div_div_eq_div_mul, Nat.mul_comm]

theorem length_bcdBytes (f n i : Nat) : (bcdBytes f n i).length = n := by
  induction n generalizing i with
  | zero => rfl
  | succ n ih => rw [bcdBytes_succ, List.length_cons, ih]

theorem bcdBytes_decimal (f n i : Nat) : (bcdBytes f n i).all decimalByte = true := by
  induction n generalizing i with
  | zero => rfl
  | succ n ih => rw [bcdBytes_succ, List.all_cons, decimalByte_bcdPair, ih, Bool.and_self]

/-- The bytes read back as the digits to the base 100 they were taken from (R69, R198). -/
theorem bcdReversed_bcdBytes (f n i : Nat) : bcdReversed (bcdBytes f n i) = f / 100 ^ i % 100 ^ n := by
  induction n generalizing i with
  | zero => rw [pow_zero, Nat.mod_one]; rfl
  | succ n ih =>
    rw [bcdBytes_succ, bcdReversed, bcdByte_bcdPair, ih, pow_succ' 100 n, Nat.mod_mul, pow_succ, Nat.div_div_eq_div_mul]

theorem frequencyHz_bcd5 {f : Nat} (h : f ≤ 9999999999) : frequencyHz (bcd5 f) = f := by
  rw [bcd5, frequencyHz_of_decimal (length_bcdBytes f 5 0) (bcdBytes_decimal f 5 0), bcdReversed_bcdBytes]
  omega

/-! ### Spans -/

/-- Every weight of a span's digits is a multiple of 100 (R104). -/
theorem dvd_spanHzOf (S : ByteSeq) : 100 ∣ spanHzOf S := by
  unfold spanHzOf
  split
  · exact dvd_zero 100
  · split
    · exact dvd_zero 100
    · dsimp only
      omega

/-! ### The statements about the decoders -/

/-- Settles O52. -/
theorem frequencyRoundTrip : Obligations.FrequencyRoundTrip :=
  fun s _ hf => ⟨_, exec_decFreq _ s, (decodeFrequency_toNat _).trans (frequencyHz_bcd5 hf)⟩

/-- Settles O54. -/
theorem spanIsMultipleOf100 : Obligations.SpanIsMultipleOf100 := by
  intro s t S v h hv
  rw [exec_decSpan] at h
  cases h
  cases hv
  rw [decodeSpan_toNat]
  exact ⟨spanHzOf_le S, Nat.mod_eq_zero_of_dvd (dvd_spanHzOf S)⟩

end Sys2Proof.Machine
end

section
/-! SUPPORT. The voltage decoder on its three ranges and the mode decoder with its table (R220 to R224). -/

namespace Sys2Proof.Machine

/-! ### DEC.VOLT -/

/-- `DEC.VOLT` changes the result only (R220). -/
theorem exec_decVolt (raw : BitVec 16) (s : State) :
    exec (.decVolt raw) s = .next { s with result := .volts (decodeVolts raw.toInt) (voltOkFlag raw.toInt) } := by
  rw [exec, execDecVolt, State.raiseIf_voltCause]
  rfl

theorem voltOkFlag_iff {raw : Int} : voltOkFlag raw = true ↔ 0 ≤ raw ∧ raw ≤ 255 := by
  simp [voltOkFlag, voltRawOk]

theorem decodeVolts_of_ok {raw : Int} (h : voltOkFlag raw = true) : decodeVolts raw = voltsInRange raw :=
  if_pos h

theorem decodeVolts_of_not_ok {raw : Int} (h : voltOkFlag raw = false) : decodeVolts raw = 0 :=
  if_neg (Bool.eq_false_iff.mp h)

theorem voltsInRange_of_lt {raw : Int} (h : raw < 14) : voltsInRange raw = 10 * (raw : Rat) / 13 :=
  if_pos h

/-- The slope 6/228 is 1/38 (R220). -/
theorem voltsInRange_of_ge {raw : Int} (h : 14 ≤ raw) : voltsInRange raw = (raw : Rat) / 38 + 10 := by
  rw [voltsInRange, if_neg (not_lt.mpr h)]
  ring

/-- From 0 on, only 0 lies at 0 V: the first segment rises from there, the second one stays above 10 V (R221). -/
theorem eq_zero_of_voltsInRange_eq_zero {raw : Int} (hnonneg : 0 ≤ raw) (h : voltsInRange raw = 0) : raw = 0 := by
  rcases lt_or_ge raw 14 with hlt | hge
  · rw [voltsInRange_of_lt hlt] at h
    simpa using h
  · rw [voltsInRange_of_ge hge] at h
    have : (0 : Rat) ≤ raw := by exact_mod_cast hnonneg
    linarith

/-- Settles O55, by the range of the operand. -/
theorem voltageDecoded : Obligations.VoltageDecoded := by
  refine ⟨fun s raw => ⟨?_, ?_, ?_⟩, ?_⟩
  · intro hout
    have hok : voltOkFlag raw.toInt = false := Bool.eq_false_iff.mpr (by rw [ne_eq, voltOkFlag_iff]; omega)
    rw [exec_decVolt, decodeVolts_of_not_ok hok, hok]
  · intro hnonneg hlt
    have hok : voltOkFlag raw.toInt = true := voltOkFlag_iff.mpr ⟨hnonneg, by omega⟩
    rw [exec_decVolt, decodeVolts_of_ok hok, voltsInRange_of_lt hlt, hok]
  · intro hge hle
    have hok : voltOkFlag raw.toInt = true := voltOkFlag_iff.mpr ⟨by omega, hle⟩
    rw [exec_decVolt, decodeVolts_of_ok hok, voltsInRange_of_ge hge, hok]
  · intro s t raw h hresult
    rw [exec_decVolt] at h
    cases h
    obtain ⟨hzero, hok⟩ := Result.volts.inj hresult
    rw [decodeVolts_of_ok hok] at hzero
    exact BitVec.toInt_inj.mp (eq_zero_of_voltsInRange_eq_zero (voltOkFlag_iff.mp hok).1 hzero)

/-! ### DEC.MODE -/

/-- `DEC.MODE` changes the result only (R223). -/
theorem exec_decMode (code : BitVec 8) (s : State) :
    exec (.decMode code) s = .next { s with result := .mode (modeIndex code) (modeNameAt (modeIndex code)) } := by
  rw [exec, execDecMode, State.raiseIf_modeCause]
  rfl

theorem modeIndex_val (code : BitVec 8) : (modeIndex code).val = if code.toNat ≤ 17 then code.toNat else 9 := by
  unfold modeIndex
  split
  · rfl
  · rfl

/-- The table of R224, read as text. -/
theorem modeText_modeNameAt (i : Fin 18) :
    ["LSB", "USB", "AM", "CW", "RTTY", "FM", "Reserved", "CW-R", "RTTY-R", "N/A", "N/A", "N/A", "N/A", "N/A", "N/A",
     "N/A", "N/A", "DV"][i.val]? = some (modeText (modeNameAt i)) := by
  revert i
  decide

/-- Settles O56: the index rule (R223) and the table (R224). -/
theorem modeDecoded : Obligations.ModeDecoded :=
  fun s code => ⟨_, _, exec_decMode code s, modeIndex_val code, modeText_modeNameAt _⟩

end Sys2Proof.Machine
end

section
/-! SUPPORT. The host agent on the block: an operation issued is the one performed, a read attempt receives its bytes
and counts (R231, R232), and what a request and a read call come to on a given line (R234). -/

namespace Sys2Proof.Machine

/-! ### Operations the host issues -/

theorem issue_of_exec {i : Instr} {s t : State} (h : exec i s = .next t) : issue i s = t := by
  simp only [issue, h]

/-- Every operation issued returns, so it has its effect (R250). -/
theorem issue_effect (i : Instr) (s : State) : ∃ t r, issue i s = t.setResult r ∧ Effect s i t := by
  obtain ⟨t, r, hexec, heff⟩ := exec_effect i s
  exact ⟨t, r, issue_of_exec hexec, heff⟩

theorem issue_rxByte (x : Byte) (s : State) :
    issue (.rxByte x) s = (rxByteOp x s).1.setResult (rxResult (rxByteOp x s).2) := rfl

theorem issue_rxFlush (s : State) : issue .rxFlush s = (s.setScan Scanner.reset).setResult .none := rfl

theorem issue_catalogForm (k : CatalogCmd) (s : State) :
    issue (catalogForm k) s =
      { s with tx := s.tx ++ wireFrame s.cfg.rigAddr hostAddrValue (catalogPath k),
               result := .txBytes (wireFrame s.cfg.rigAddr hostAddrValue (catalogPath k)) } :=
  issue_of_exec ((exec_catalogForm k s).trans (catalogOp_eq k s))

/-! ### Read attempts -/

theorem frameOf_rxResult (r : Option FrameRecord) : frameOf (rxResult r) = r.toList := by
  cases r <;> rfl

/-- Feeding the bytes of a read receives them, in everything but the result (R231). -/
theorem feed_eq (b : ByteSeq) (s : State) :
    ∃ r, feed b s = ((receiveBytes b s).1.setResult r, (receiveBytes b s).2) := by
  induction b generalizing s with
  | nil => exact ⟨s.result, rfl⟩
  | cons x xs ih =>
    obtain ⟨r, hr⟩ := ih (issue (.rxByte x) s)
    refine ⟨r, ?_⟩
    rw [issue_rxByte, receiveBytes_setResult] at hr
    simp only [feed, issue_rxByte, hr, State.setResult_setResult, State.setResult_result, frameOf_rxResult,
      receiveBytes]

/-- A read attempt returns the frames of its bytes. -/
theorem attempt_frames (b : ByteSeq) (s : State) : (attempt b s).2 = (receiveBytes b s).2 := by
  obtain ⟨r, hfeed⟩ := feed_eq b s
  simp only [attempt, hfeed]

/-- A read attempt is counted after its bytes (R231, R191). -/
theorem attempt_sc (b : ByteSeq) (s : State) : (attempt b s).1.sc = scCount (receiveBytes b s).1.sc := by
  obtain ⟨r, hfeed⟩ := feed_eq b s
  simp only [attempt, hfeed, issue_of_exec (exec_scAttempt _), State.setResult_sc]

theorem attempts_frames_singleton (b : ByteSeq) (s : State) : (attempts [b] s).2 = (receiveBytes b s).2 := by
  simp only [attempts, attempt_frames, List.append_nil]

/-- Attempts that read nothing return no frame. -/
theorem attempts_frames_silent {reads : List ByteSeq} (h : ∀ r ∈ reads, r = []) (s : State) :
    (attempts reads s).2 = [] := by
  induction reads generalizing s with
  | nil => rfl
  | cons r rs ih =>
    obtain ⟨rfl, hrs⟩ := List.forall_mem_cons.mp h
    simp only [attempts, attempt_frames, ih hrs, receiveBytes, List.append_nil]

/-! ### Requests and read calls -/

/-- The state in which a request for a form makes its read attempts: scanner flushed, form performed, stream taken
(R231). -/
def requested (form : Instr) (s : State) : State := (takeTx (issue form (issue .rxFlush s))).2

/-- A request that is written ends with the frames of its read attempts (R231). -/
theorem request_value (form : Instr) (reads : List ByteSeq) (s : State) :
    (request form { writeOk := true, reads := reads } s).value =
      .value (attempts (reads.take nAttempts) (requested form s)).2 := rfl

theorem requested_catalogForm_scan (k : CatalogCmd) (s : State) :
    (requested (catalogForm k) s).scan = Scanner.reset := by
  rw [requested, issue_catalogForm, issue_rxFlush]
  rfl

theorem requested_catalogForm_params (k : CatalogCmd) (s : State) :
    (requested (catalogForm k) s).params = s.params := by
  rw [requested, issue_catalogForm, issue_rxFlush]
  rfl

theorem request_silent {reads : List ByteSeq} (h : ∀ r ∈ reads, r = []) (form : Instr) (s : State) :
    (request form { writeOk := true, reads := reads } s).value = .value [] := by
  rw [request_value, attempts_frames_silent fun r hr => h r (List.mem_of_mem_take hr)]

/-- A catalog request answered by one frame of a command other than `27 00` ends with that frame's record. -/
theorem request_answered {k : CatalogCmd} (hk : k ≠ .readScope) {s : State} {src : Byte} {payload : ByteSeq}
    (hfd : 0xFD ∉ src :: payload) (hcap : fitsCap s.params.rxbufCap (2 + (catalogPath k ++ payload).length))
    (sent : CatalogCmd) :
    (request (catalogForm sent)
        { writeOk := true, reads := [wireFrame hostAddrValue src (catalogPath k ++ payload)] } s).value =
      .value [plainRecord src (catalogPath k) payload] := by
  rw [← requested_catalogForm_params sent s] at hcap
  calc (request (catalogForm sent) _ s).value
    _ = .value (attempts [wireFrame hostAddrValue src (catalogPath k ++ payload)] (requested (catalogForm sent) s)).2 :=
      request_value _ _ s
    _ = .value [plainRecord src (catalogPath k) payload] := by
      rw [attempts_frames_singleton, receiveBytes_wireFrame (requested_catalogForm_scan sent s)
        (catalogPath_append_ne_nil k payload) (postamble_not_mem_catalog k hfd) hcap, frameEmit_plain hk]

/-- A frame that is no echo and has the expected path is the response (R231). -/
theorem response_plainRecord {src : Byte} (h : src ≠ 0x00) (path payload : ByteSeq) (fs : List FrameRecord) :
    response path (plainRecord src path payload :: fs) = some (plainRecord src path payload) :=
  List.find?_cons_of_pos (by simpa [plainRecord] using h)

section ReadCall

variable {k : CatalogCmd} {form : Instr} {line : Line} {s : State} {fs : List FrameRecord}
  (hvalue : (request form line s).value = .value fs)
include hvalue

/-- A read call without a response gives its sentinel (R234). -/
theorem readCall_of_no_response (hnone : response (catalogPath k) fs = none) (decodeOpOf : ByteSeq → Instr)
    (sentinel : Result) : (readCall k form decodeOpOf sentinel line s).value = .value sentinel := by
  simp only [readCall, hvalue, hnone]

/-- A read call with a response gives what the block operation returns on its payload (R234). -/
theorem readCall_of_response {f : FrameRecord} (hsome : response (catalogPath k) fs = some f)
    (decodeOpOf : ByteSeq → Instr) (sentinel : Result) :
    (readCall k form decodeOpOf sentinel line s).value =
      .value (issue (decodeOpOf f.payload) (request form line s).state).result := by
  simp only [readCall, hvalue, hsome]

end ReadCall

theorem readCall_silent {reads : List ByteSeq} (h : ∀ r ∈ reads, r = []) (k : CatalogCmd) (form : Instr)
    (decodeOpOf : ByteSeq → Instr) (sentinel : Result) (s : State) :
    (readCall k form decodeOpOf sentinel { writeOk := true, reads := reads } s).value = .value sentinel :=
  readCall_of_no_response (request_silent h form s) rfl decodeOpOf sentinel

/-- A form sent without waiting: its frame leaves behind what the stream held, and no register changes (R241). -/
theorem sendOnly_catalogForm (k : CatalogCmd) (reads : List ByteSeq) (s : State) :
    sendOnly (catalogForm k) { writeOk := true, reads := reads } s =
      { state := { s with tx := [], result := .txBytes (wireFrame s.cfg.rigAddr hostAddrValue (catalogPath k)) }
        sent := s.tx ++ wireFrame s.cfg.rigAddr hostAddrValue (catalogPath k)
        value := .value () } := by
  rw [sendOnly, issue_catalogForm]
  rfl

end Sys2Proof.Machine
end

section
/-! SUPPORT. The statements about the host agent's calls (R235 to R241). -/

namespace Sys2Proof.Machine

/-! ### The frequency read back -/

theorem postamble_not_mem_of_decimal {B : ByteSeq} (h : B.all decimalByte = true) : postamble ∉ B := by
  intro hmem
  have hdec : decimalByte postamble = true := List.all_eq_true.mp h _ hmem
  exact absurd hdec (by decide)

theorem slice_zero_of_length_le {S : ByteSeq} {n : Nat} (h : S.length ≤ n) : slice S 0 n = S := by
  rw [slice, List.take_of_length_le h, List.drop_zero]

/-- `DEC.FREQ` on the payload of an answer with a frequency returns that frequency (R198). -/
theorem issue_decFreq_bcd5 {f : Nat} (h : f ≤ 9999999999) (s : State) :
    (issue (.decFreq (slice (bcd5 f) 0 freqLen)) s).result = .freqHz (BitVec.ofNat 34 f) := by
  have hlen : (bcd5 f).length ≤ freqLen := (length_bcdBytes f 5 0).le
  rw [slice_zero_of_length_le hlen, issue_of_exec (exec_decFreq _ s), decodeFrequency, frequencyHz_bcd5 h]

/-- Settles O57: the answer is scanned from the flushed scanner, it is the response, and its payload decodes. -/
theorem frequencyReadBack : Obligations.FrequencyReadBack := by
  intro s src f hlegal hecho hfd hf
  have hpay : 0xFD ∉ src :: bcd5 f :=
    List.not_mem_cons_of_ne_of_not_mem hfd.symm (postamble_not_mem_of_decimal (bcdBytes_decimal f 5 0))
  have hcap : fitsCap s.params.rxbufCap (2 + (catalogPath .readFreq ++ bcd5 f).length) := by
    intro c hc
    have hbuf := rxbufCap_ge_of_legal hlegal hc
    have hlen : (catalogPath .readFreq ++ bcd5 f).length = 6 := rfl
    omega
  have hrequest := request_answered (k := .readFreq) nofun hpay hcap .readFreq
  exact (readCall_of_response hrequest (response_plainRecord hecho _ _ _) _ _).trans
    (congrArg HostValue.value (issue_decFreq_bcd5 hf _))

/-! ### The silent line -/

/-- Settles O58: no attempt returns a frame, so there is no response. -/
theorem silentLineGivesSentinels : Obligations.SilentLineGivesSentinels :=
  fun s _ _ h => ⟨readCall_silent h .readFreq .rdfreq _ _ s, readCall_silent h .readMode .rdmode _ _ s,
    readCall_silent h .readVolt .rdvolt _ _ s⟩

/-! ### The end of a spectrum read -/

theorem issue_endsWithin {i : Instr} (hi : isRequest i = false) {n : Nat} {s : State} (h : EndsWithin n s.sc) :
    EndsWithin n (issue i s).sc := by
  obtain ⟨t, r, hissue, heff⟩ := issue_effect i s
  rw [hissue]
  exact heff.keeps_endsWithin hi h

/-- A session armed with a budget ends within that many attempts (R181, R191). -/
theorem scArm_endsWithin (budget : BitVec 8) (q : Reassembler) : EndsWithin (max budget.toNat 1) (scArm budget q) :=
  endsWithin_budget le_rfl

/-- Arming leaves a session that the budget of the call bounds (R240). -/
theorem spectrumArm_endsWithin (s : State) : EndsWithin nAttempts (spectrumArm s).sc := by
  have hidle : inFlight (if inFlight s.sc then issue .scAbort s else s).sc = false := by
    split
    · rfl
    · next hout => exact Bool.eq_false_of_not_eq_true hout
  rw [spectrumArm, issue_of_exec (exec_scReq_of_not_inFlight hidle _)]
  exact issue_endsWithin rfl (scArm_endsWithin _ _)

theorem attempt_endsWithin {n : Nat} {s : State} (b : ByteSeq) (h : EndsWithin (n + 1) s.sc) :
    EndsWithin n (attempt b s).1.sc := by
  rw [attempt_sc]
  exact scCount_endsWithin
    (receiveBytes_keeps (keep := fun u => EndsWithin (n + 1) u.sc) rxByteOp_endsWithin b s h)

/-- As many turns of the loop as attempts end the session end it, whatever is read (R192, R240). -/
theorem spectrumLoop_ends_session {n : Nat} {s : State} (reads : List ByteSeq) (h : EndsWithin n s.sc) :
    inFlight (spectrumLoop n reads s).sc = false := by
  induction n generalizing reads s with
  | zero => exact endsWithin_zero_iff.mp h
  | succ n ih =>
    rw [spectrumLoop]
    split
    · exact ih _ (attempt_endsWithin _ h)
    · next hended => exact Bool.eq_false_of_not_eq_true hended

/-- Settles O59: with `SEND_RDSCOPE` or without, the loop starts within the budget of the armed session. -/
theorem spectrumReadEnds : Obligations.SpectrumReadEnds := by
  intro hp first line s hvalue
  have harmed := spectrumArm_endsWithin s
  unfold readSpectrum at hvalue ⊢
  dsimp only at hvalue ⊢
  split
  case isFalse => exact spectrumLoop_ends_session _ harmed
  case isTrue hsend =>
    rw [if_pos hsend] at hvalue
    split
    case isTrue => exact spectrumLoop_ends_session _ (issue_endsWithin (i := .rdscope) rfl harmed)
    case isFalse hwrite =>
      rw [if_neg hwrite] at hvalue
      exact absurd rfl hvalue

/-! ### The power calls -/

theorem powerOn_eq (line : Line) (s : State) : powerOn line s = sendOnly (catalogForm .powerOn) line s := rfl

theorem powerOff_eq (line : Line) (s : State) : powerOff line s = sendOnly (catalogForm .powerOff) line s := rfl

/-- Settles O60: with the stream empty, what is taken off it is the form's frame. -/
theorem powerCallsSendOneFrame : Obligations.PowerCallsSendOneFrame := by
  intro reads s htx
  rw [powerOn_eq, powerOff_eq, sendOnly_catalogForm, sendOnly_catalogForm, htx]
  exact ⟨rfl, rfl, rfl, rfl, rfl, rfl, rfl, rfl, rfl, rfl⟩

end Sys2Proof.Machine
end

section
/-! SUPPORT. The machine as a whole: what every operation keeps (the queue, the parameters), that no step stops (R250,
R298), and that an operation reads no flag of `ERR` (R262). -/

namespace Sys2Proof.Machine

/-! ### What every operation keeps, and that each step returns -/

theorem Effect.port_eq {s t : State} {i : Instr} (h : Effect s i t) : t.port = s.port := by
  cases h with
  | reset | profile | sent | flushed | armed | counted | discarded | decoded => rfl
  | unknownProfile => exact State.raise_port _ _
  | refused => exact s.raise_port _
  | byte x => exact rxByteOp_port x s
  | received _ b => exact receiveBytes_port b s

theorem Effect.params_eq {s t : State} {i : Instr} (h : Effect s i t) : t.params = s.params := by
  cases h with
  | reset | profile | sent | flushed | armed | counted | discarded | decoded => rfl
  | unknownProfile => exact State.raise_params _ _
  | refused => exact s.raise_params _
  | byte x => exact rxByteOp_params x s
  | received _ b => exact receiveBytes_params b s

theorem unnamedTransaction_returns (tr : Transaction) (s : State) : ∃ t, unnamedTransaction tr s = .next t := by
  by_cases hlane : tr.lane = .rx
  · exact ⟨_, (unnamedTransaction_of_rx hlane s).trans (receiveRun_eq tr.bytes s)⟩
  · exact ⟨s, unnamedTransaction_of_not_rx hlane s⟩

theorem step_returns (s : State) : ∃ t, step s = .next t := by
  cases hport : s.port with
  | nil => exact ⟨s, step_of_port_nil hport⟩
  | cons tr rest =>
    cases hdec : decode s.reading tr with
    | ok i =>
      obtain ⟨t, r, hexec, -⟩ := exec_effect i (s.setPort rest)
      exact ⟨_, (step_of_decode_ok hport hdec).trans hexec⟩
    | error e =>
      obtain ⟨t, hun⟩ := unnamedTransaction_returns tr (s.setPort rest)
      exact ⟨t, (step_of_decode_error hport hdec).trans hun⟩

/-- Settles O7: every operation answers one of the effects, none of which touches the queue or the parameters. -/
theorem everyOperationReturns : Obligations.EveryOperationReturns := by
  refine ⟨fun i s => ?_, step_returns⟩
  obtain ⟨t, r, hexec, heff⟩ := exec_effect i s
  exact ⟨_, hexec, heff.port_eq, heff.params_eq, HostAddr.value_eq _⟩

/-! ### No operation reads ERR (R262)

Each lemma runs one operation from a state and from the same state with another `ERR`: the first run ends in some `t`,
the second in `t` with another `ERR`. -/

theorem rxByteOp_setErr (x : Byte) (s : State) (e : BitVec 5) :
    ∃ e', rxByteOp x (s.setErr e) = ((rxByteOp x s).1.setErr e', (rxByteOp x s).2) := by
  simp only [rxByteOp, State.setErr_scan, State.setErr_cfg, State.setErr_params, State.setErr_sc]
  split <;> exact ⟨_, rfl⟩

theorem receiveBytes_setErr (b : ByteSeq) (s : State) (e : BitVec 5) :
    ∃ e', receiveBytes b (s.setErr e) = ((receiveBytes b s).1.setErr e', (receiveBytes b s).2) := by
  induction b generalizing s e with
  | nil => exact ⟨e, rfl⟩
  | cons x xs ih =>
    obtain ⟨e₁, hone⟩ := rxByteOp_setErr x s e
    obtain ⟨e₂, hmore⟩ := ih (rxByteOp x s).1 e₁
    exact ⟨e₂, by simp only [receiveBytes, hone, hmore]⟩

theorem receiveRun_setErr (b : ByteSeq) (s : State) (e : BitVec 5) :
    ∃ t e', receiveRun b s = .next t ∧ receiveRun b (s.setErr e) = .next (t.setErr e') := by
  obtain ⟨e', hrun⟩ := receiveBytes_setErr b s e
  exact ⟨_, e', receiveRun_eq b s, by rw [receiveRun_eq, hrun]; rfl⟩

theorem txEncodeOp_setErr (dst : Byte) (cmd payload : ByteSeq) (s : State) (e : BitVec 5) :
    ∃ t e', txEncodeOp dst cmd payload s = .next t ∧
      txEncodeOp dst cmd payload (s.setErr e) = .next (t.setErr e') := by
  cases h : txLengthsOk cmd payload with
  | true => exact ⟨_, e, txEncodeOp_ok h s, txEncodeOp_ok h (s.setErr e)⟩
  | false => exact ⟨_, errSet .txArg e, txEncodeOp_refused h dst s, txEncodeOp_refused h dst (s.setErr e)⟩

theorem catalogOp_setErr (k : CatalogCmd) (s : State) (e : BitVec 5) :
    ∃ t e', catalogOp k s = .next t ∧ catalogOp k (s.setErr e) = .next (t.setErr e') :=
  txEncodeOp_setErr s.cfg.rigAddr (catalogPath k) [] s e

theorem exec_cfgProfile_setErr (name : ByteSeq) (s : State) (e : BitVec 5) :
    ∃ t e', exec (.cfgProfile name) s = .next t ∧ exec (.cfgProfile name) (s.setErr e) = .next (t.setErr e') := by
  cases h : findProfile s.params.profiles name with
  | some row => exact ⟨_, e, exec_cfgProfile_known h, exec_cfgProfile_known (s := s.setErr e) h⟩
  | none =>
    exact ⟨_, errSet .cfgUnknown e, exec_cfgProfile_unknown h, exec_cfgProfile_unknown (s := s.setErr e) h⟩

theorem exec_scReq_setErr (budget : BitVec 8) (s : State) (e : BitVec 5) :
    ∃ t e', exec (.scReq budget) s = .next t ∧ exec (.scReq budget) (s.setErr e) = .next (t.setErr e') := by
  cases h : inFlight s.sc with
  | true =>
    exact ⟨_, errSet .scBusy e, exec_scReq_of_inFlight h budget, exec_scReq_of_inFlight (s := s.setErr e) h budget⟩
  | false => exact ⟨_, e, exec_scReq_of_not_inFlight h budget, exec_scReq_of_not_inFlight (s := s.setErr e) h budget⟩

/-- Every operation does the same to the rest of the state, and returns the same, whatever `ERR` holds (R262). -/
theorem exec_setErr (i : Instr) (s : State) (e : BitVec 5) :
    ∃ t e', exec i s = .next t ∧ exec i (s.setErr e) = .next (t.setErr e') := by
  cases i with
  | reset => exact ⟨_, 0, exec_reset s, exec_reset (s.setErr e)⟩
  | cfgProfile name => exact exec_cfgProfile_setErr name s e
  | rxByte x =>
    obtain ⟨e', hbyte⟩ := rxByteOp_setErr x s e
    exact ⟨_, e', exec_rxByte x s, by rw [exec_rxByte, hbyte]; rfl⟩
  | rxFlush => exact ⟨_, e, rxFlushClears s, rxFlushClears (s.setErr e)⟩
  | scReq budget => exact exec_scReq_setErr budget s e
  | scAttempt => exact ⟨_, e, exec_scAttempt s, exec_scAttempt (s.setErr e)⟩
  | scAbort => exact ⟨_, e, exec_scAbort s, exec_scAbort (s.setErr e)⟩
  | decFreq B => exact ⟨_, e, exec_decFreq B s, exec_decFreq B (s.setErr e)⟩
  | decSpan B => exact ⟨_, e, exec_decSpan B s, exec_decSpan B (s.setErr e)⟩
  | decVolt raw => exact ⟨_, e, exec_decVolt raw s, exec_decVolt raw (s.setErr e)⟩
  | decMode code => exact ⟨_, e, exec_decMode code s, exec_decMode code (s.setErr e)⟩
  | reservedOp code operands =>
    exact ⟨_, errSet .opIllegal e, exec_reservedOp code operands s, exec_reservedOp code operands (s.setErr e)⟩
  | txEncode | txframeGeneric => exact txEncodeOp_setErr _ _ _ s e
  | rdfreq => exact catalogOp_setErr .readFreq s e
  | rdmode => exact catalogOp_setErr .readMode s e
  | pwron => exact catalogOp_setErr .powerOn s e
  | pwroff => exact catalogOp_setErr .powerOff s e
  | rdvolt => exact catalogOp_setErr .readVolt s e
  | scopedispOn => exact catalogOp_setErr .scopeDispOn s e
  | scopedispOff => exact catalogOp_setErr .scopeDispOff s e
  | scopeoutOn => exact catalogOp_setErr .scopeOutOn s e
  | scopeoutOff => exact catalogOp_setErr .scopeOutOff s e
  | rdscope => exact catalogOp_setErr .readScope s e
  | rxFreq | rxMode | rxPwron | rxPwroff | rxVolt | rxScopedispOn | rxScopedispOff | rxScopeoutOn | rxScopeoutOff
    | rxScope | rxScopeFirst | rxScopeLast | rxScopeMid | rxUnknown => exact receiveRun_setErr _ s e

/-- Settles O13: with `ERR` set to `e` the run ends in the same state but for `ERR`. -/
theorem flagsBlockNothing : Obligations.FlagsBlockNothing := by
  intro i s t e hexec
  obtain ⟨t', e', hrun, hrun'⟩ := exec_setErr i s e
  cases hexec.symm.trans hrun
  exact ⟨t.setErr e', hrun', rfl⟩

end Sys2Proof.Machine
end
